-- ==== Sys2Proof/Word.lean ====
section
/-! DEFINITION. Word.lean: the widths of VCFD (spec/00_scope.md R4, R5; spec/20_memory.md R50). -/

namespace Sys2Proof

/-- A byte, `b[7:0]` (R4). -/
abbrev Byte := BitVec 8

/-- A 32-bit register value, or the data of one port transaction (R4, R50). -/
abbrev Word := BitVec 32

/-- A receive-window position: a 32-bit counter that wraps modulo 2^32 (R5). -/
abbrev Position := BitVec 32

/-- A word index of the register port, `0 <= a < 64` (R50). -/
abbrev RegIndex := BitVec 6

end Sys2Proof
end

