-- ==== Sys2Proof/Config.lean ====
section
/-! DEFINITION. Config.lean: the two parameters that spec/00_scope.md R2 and R3 leave open. Neither is state (R35). -/

namespace Sys2Proof

/-- How far RXCAP lies above its least value 16. No body: nothing can be proved of it (R2; log entry 4). -/
opaque Config.rxcapAbove16 : Nat

/-- `RXCAP`, the receive-window capacity in bytes: an unknown number with `16 <= RXCAP <= 2^31` (R2).
Every number of that range is the value for some choice of `Config.rxcapAbove16`. -/
def Config.rxcap : Nat := min Config.rxcapAbove16 (2 ^ 31 - 16) + 16

/-- `BASE`, the bus address of the register window (R3; log entry 5). No rule depends on its value. -/
opaque Config.base : Nat

end Sys2Proof
end

