-- ==== Sys2Proof/Syntax.lean ====
section
/-! DEFINITION. Syntax.lean: what the host can do at the port (spec/20_memory.md R50), the named registers
(spec/10_state.md R12), and the instructions, one constructor for each row of spec/opcode_table.json. -/

namespace Sys2Proof

/-- One port transaction (R50): the only accesses a model of VCFD admits (R51). -/
inductive PortAccess where
  /-- `PortRead(a)` -/
  | read (a : RegIndex)
  /-- `PortWrite(a, wdata)` -/
  | write (a : RegIndex) (wdata : Word)
deriving DecidableEq, Repr

/-- The two kinds of step of R1: a port access made by the host, or the reset event (R180). -/
inductive HostEvent where
  | access (p : PortAccess)
  | reset
deriving DecidableEq, Repr

/-- The 23 registers of R12, in the order of their offsets 0x00 to 0x58. -/
inductive Reg where
  | cmd | status | ctrl | valLo | valHi | cnt | out0 | out1 | out2 | in0 | in1 | in2
  | inlen | rxdata | rxpeek | ptr | rd | scan | wr | rxlvl | rxcap | fstart | flen
deriving DecidableEq, Repr

/-- An instruction of VCFD: a command (R72), the behaviour of an illegal command word (R151), or a port
operation (R140, R141, R152, R153). -/
inductive Instr where
  /-- ENC32 (R105) -/
  | enc32
  /-- ENC64 (R106) -/
  | enc64
  /-- LEN32 (R107) -/
  | len32
  /-- LEN64 (R108) -/
  | len64
  /-- DEC32R (R109) -/
  | dec32r
  /-- DEC64R (R110) -/
  | dec64r
  /-- DEC32W (R112) -/
  | dec32w
  /-- DEC64W (R113) -/
  | dec64w
  /-- FDETECT (R130) -/
  | fdetect
  /-- FRELEASE (R131) -/
  | frelease
  /-- FHDR (R132) -/
  | fhdr
  /-- FEOS (R133) -/
  | feos
  /-- SRESET (R150) -/
  | sreset
  /-- ILLEGAL: a write of the command word `w`, which is not a legal one (R151) -/
  | illegal (w : Word)
  /-- RXPUSH: a write of `wdata` to RXDATA (R140) -/
  | rxpush (wdata : Word)
  /-- RXPEEK: a read of RXPEEK (R141) -/
  | rxpeek
  /-- REGWR: a write of `wdata` to an offset that is neither CMD nor RXDATA (R152) -/
  | regwr (a : RegIndex) (wdata : Word)
  /-- REGRD: a read of the register at word index `a` (R153) -/
  | regrd (a : RegIndex)
deriving DecidableEq, Repr

end Sys2Proof
end

