-- ==== Sys2Proof/WellFormed.lean ====
section
/-! DEFINITION. WellFormed.lean: which terms of `Instr` are instructions. Three rows of the table carry a condition:
ILLEGAL (its word is not a legal command word, R74), REGWR (its offset is neither CMD nor RXDATA, R152) and REGRD (the
read of RXPEEK is the row RXPEEK, so REGRD stands for the others; log entry 9). -/

namespace Sys2Proof

/-- The opcodes of the map of R72. -/
def opcodes : List (BitVec 8) :=
  [0x01, 0x02, 0x03, 0x04, 0x05, 0x06, 0x07, 0x08, 0x10, 0x11, 0x12, 0x13, 0x1F]

/-- A command word is legal if `wdata[31:8] == 0` and `wdata[7:0]` is one of the opcodes (R72). -/
def legalCommand (w : Word) : Bool :=
  w.extractLsb' 8 24 == 0 && opcodes.contains (w.extractLsb' 0 8)

/-- Word index of CMD, offset 0x00 (R12). -/
def cmdIndex : RegIndex := 0

/-- Word index of RXDATA, offset 0x34 (R12). -/
def rxdataIndex : RegIndex := 13

/-- Word index of RXPEEK, offset 0x38 (R12). -/
def rxpeekIndex : RegIndex := 14

/-- The terms that stand for a port transaction (R72, R74, R140, R141, R152, R153). -/
def wellFormed : Instr → Bool
  | .enc32 => true
  | .enc64 => true
  | .len32 => true
  | .len64 => true
  | .dec32r => true
  | .dec64r => true
  | .dec32w => true
  | .dec64w => true
  | .fdetect => true
  | .frelease => true
  | .fhdr => true
  | .feos => true
  | .sreset => true
  | .illegal w => !legalCommand w
  | .rxpush _ => true
  | .rxpeek => true
  | .regwr a _ => a != cmdIndex && a != rxdataIndex
  | .regrd a => a != rxpeekIndex

end Sys2Proof
end

