-- ==== Sys2Proof/Decode.lean ====
section
/-! DEFINITION. Decode.lean: from a port transaction to the instruction it runs (spec/30_encoding.md R72, R74;
spec/20_memory.md R52), from the raw numbers of a host program to a transaction, rejecting by name what the port cannot
carry (R50, R51, R76), and the encoder of the same tables. -/

namespace Sys2Proof

/-- Why raw numbers are not a port transaction. -/
inductive DecodeError where
  /-- The byte offset is not a multiple of 4: a misaligned access cannot be expressed at the port (R51). -/
  | misaligned (off : Nat)
  /-- The byte offset or bus address is outside the 256-byte register window (R3, R12). -/
  | outsideWindow (off : Nat)
  /-- The data is wider than the 32 bits every transaction moves (R50). -/
  | dataTooWide (wdata : Nat)
  /-- An opcode-table word of a width that no row's fixed bits have (log entry 7). -/
  | noSuchWidth (nbits : Nat)
  /-- A bare byte offset that is neither RXDATA's nor RXPEEK's does not say read or write (log entry 7). -/
  | directionUnknown (off : Nat)
deriving DecidableEq, Repr

/-- The command a write of `w` to CMD runs (R72); every other word is illegal (R74). -/
def decodeCommand (w : Word) : Instr :=
  if w.extractLsb' 8 24 = 0 then
    match (w.extractLsb' 0 8).toNat with
    | 0x01 => .enc32
    | 0x02 => .enc64
    | 0x03 => .len32
    | 0x04 => .len64
    | 0x05 => .dec32r
    | 0x06 => .dec64r
    | 0x07 => .dec32w
    | 0x08 => .dec64w
    | 0x10 => .fdetect
    | 0x11 => .frelease
    | 0x12 => .fhdr
    | 0x13 => .feos
    | 0x1F => .sreset
    | _ => .illegal w
  else .illegal w

/-- The instruction a port transaction runs (R52). Total: every transaction has one. -/
def decode : PortAccess → Instr
  | .read a => if a = rxpeekIndex then .rxpeek else .regrd a
  | .write a wdata =>
    if a = cmdIndex then decodeCommand wdata
    else if a = rxdataIndex then .rxpush wdata
    else .regwr a wdata

/-- The port transaction an instruction is (R72's opcodes, R12's offsets): the transaction R76 expands it into. -/
def encode : Instr → PortAccess
  | .enc32 => .write cmdIndex 0x00000001
  | .enc64 => .write cmdIndex 0x00000002
  | .len32 => .write cmdIndex 0x00000003
  | .len64 => .write cmdIndex 0x00000004
  | .dec32r => .write cmdIndex 0x00000005
  | .dec64r => .write cmdIndex 0x00000006
  | .dec32w => .write cmdIndex 0x00000007
  | .dec64w => .write cmdIndex 0x00000008
  | .fdetect => .write cmdIndex 0x00000010
  | .frelease => .write cmdIndex 0x00000011
  | .fhdr => .write cmdIndex 0x00000012
  | .feos => .write cmdIndex 0x00000013
  | .sreset => .write cmdIndex 0x0000001F
  | .illegal w => .write cmdIndex w
  | .rxpush wdata => .write rxdataIndex wdata
  | .rxpeek => .read rxpeekIndex
  | .regwr a wdata => .write a wdata
  | .regrd a => .read a

/-- The register at a word index, none at the reserved offsets 0x5C to 0xFC (R12, R33). -/
def regAt (a : RegIndex) : Option Reg :=
  match a.toNat with
  | 0 => some .cmd
  | 1 => some .status
  | 2 => some .ctrl
  | 3 => some .valLo
  | 4 => some .valHi
  | 5 => some .cnt
  | 6 => some .out0
  | 7 => some .out1
  | 8 => some .out2
  | 9 => some .in0
  | 10 => some .in1
  | 11 => some .in2
  | 12 => some .inlen
  | 13 => some .rxdata
  | 14 => some .rxpeek
  | 15 => some .ptr
  | 16 => some .rd
  | 17 => some .scan
  | 18 => some .wr
  | 19 => some .rxlvl
  | 20 => some .rxcap
  | 21 => some .fstart
  | 22 => some .flen
  | _ => none

/-- `PortRead` or `PortWrite`, apart from its operands. -/
inductive Direction where
  | read
  | write
deriving DecidableEq, Repr

/-- The word index of a byte offset: word `i` is at offset `4*i` (R12). -/
def indexOfOffset (off : Nat) : Except DecodeError RegIndex :=
  if 256 ≤ off then .error (.outsideWindow off)
  else if off % 4 ≠ 0 then .error (.misaligned off)
  else .ok (BitVec.ofNat 6 (off / 4))

/-- The word index of a bus address, `a = (addr - BASE) >> 2` (R3, R50). -/
def indexOfAddress (addr : Nat) : Except DecodeError RegIndex :=
  if addr < Config.base then .error (.outsideWindow addr) else indexOfOffset (addr - Config.base)

/-- One line of an encoded host program, `W(off, wdata)` or `R(off)` (R76), as a port transaction. -/
def decodeLine (d : Direction) (off wdata : Nat) : Except DecodeError PortAccess :=
  match indexOfOffset off with
  | .error e => .error e
  | .ok a =>
    match d with
    | .read => .ok (.read a)
    | .write => if 2 ^ 32 ≤ wdata then .error (.dataTooWide wdata) else .ok (.write a (BitVec.ofNat 32 wdata))

/-- The transaction that a word of spec/opcode_table.json stands for (log entry 7). A 32-bit word is a CMD word (R72). An
8-bit word is the byte offset of a port operation, of which the mask 0xFC keeps bits 7:2: RXDATA's is a write (with data
0) and RXPEEK's a read. -/
def tableAccess (nbits w : Nat) : Except DecodeError PortAccess :=
  if nbits = 32 then
    if 2 ^ 32 ≤ w then .error (.dataTooWide w) else .ok (.write cmdIndex (BitVec.ofNat 32 w))
  else if nbits = 8 then
    if 256 ≤ w then .error (.outsideWindow w)
    else if w / 4 = 13 then .ok (.write rxdataIndex 0)
    else if w / 4 = 14 then .ok (.read rxpeekIndex)
    else .error (.directionUnknown w)
  else .error (.noSuchWidth nbits)

/-- The instruction the decoder reads from a word of the opcode table. -/
def decodeTableWord (nbits w : Nat) : Option Instr :=
  match tableAccess nbits w with
  | .ok p => some (decode p)
  | .error _ => none

end Sys2Proof
end

