-- ==== Sys2Proof/Machine/State.lean ====
section
/-! DEFINITION. Machine/State.lean: the architectural state of VCFD (spec/10_state.md R10, R12; spec/20_memory.md R57),
the model's own two fields for the host's side of the port, the reasons a step can stop, and the state after reset. -/

namespace Sys2Proof.Machine

open Sys2Proof

/-- The result codes of R161, the only values of STATUS.CODE and STATUS.FERR (log entry 10). -/
inductive Code where
  | ok | need | evarint | eframe | etoobig | eptr | eill | eovf | eeos
deriving DecidableEq, Repr

/-- The receive-window storage `Win` (R57): position and byte, positions strictly rising, no entry equal to what an
unlisted position reads as (`unwritten` in Machine/Ops.lean; log entry 3). -/
abbrev Memory := List Host.Cell

/-- The state of VCFD, each field under the name 10_state.md gives the register, and the model's own `pending` and
`resp`. -/
structure State where
  /-- STATUS.CODE: the result code of the most recent command (R14) -/
  code : Code
  /-- STATUS.FERR: the fatal latch; `ok`, which is 0, while the stream is healthy (R16) -/
  ferr : Code
  /-- CTRL: MINREQ in bit 0, HITRUNC in bit 1 (R13) -/
  ctrl : Word
  /-- VAL_LO: bits 31:0 of the operand or result VAL (R19) -/
  valLo : Word
  /-- VAL_HI: bits 63:32 of VAL (R19) -/
  valHi : Word
  /-- CNT: the byte count a command wrote (R20) -/
  cnt : Word
  /-- OUT0: bytes 0 to 3 of the output sequence (R21) -/
  out0 : Word
  /-- OUT1: bytes 4 to 7 of the output sequence (R21) -/
  out1 : Word
  /-- OUT2: bytes 8 and 9 of the output sequence (R21) -/
  out2 : Word
  /-- IN0: bytes 0 to 3 of the input sequence (R22) -/
  in0 : Word
  /-- IN1: bytes 4 to 7 of the input sequence (R22) -/
  in1 : Word
  /-- IN2: bytes 8 to 11 of the input sequence (R22) -/
  in2 : Word
  /-- INLEN: the number of valid input bytes (R23) -/
  inlen : Word
  /-- PTR: the host's parse position (R26) -/
  ptr : Position
  /-- RD: the release cursor (R27) -/
  rd : Position
  /-- SCAN: the frame detector's cursor (R28) -/
  scan : Position
  /-- WR: the write cursor (R29) -/
  wr : Position
  /-- FSTART: the first body byte of the last frame found (R31) -/
  fstart : Position
  /-- FLEN: the body length of the last frame found (R32) -/
  flen : Word
  /-- Win: the hidden receive-window storage (R57) -/
  win : Memory
  /-- The MODEL's own: the host's events still to come, the next one first, in port order (R1, R61; log entry 1) -/
  pending : List HostEvent
  /-- The MODEL's own: what the last event's `PortRead` returned, none if it was no read (R50; log entry 2) -/
  resp : Option Word
deriving DecidableEq, Repr

/-- Why a step can stop with a fault. VCFD itself never traps (R160). -/
inductive Fault where
  /-- Raised by FDETECT alone, where R130 would call `WinRead` at a position that is not held, for which R58 defines no
  value: when SCAN is not in `[RD, WR]`. R34(a) says no reachable state is so. Safe (log entry 6). -/
  | undefinedWinRead
deriving DecidableEq, Repr

/-- Why a step can be refused. -/
inductive Refusal where
  /-- Raised by an arm of `exec` whose instruction has no meaning yet; no arm is left so. Safe. -/
  | notModelled (mnemonic : String)
  /-- Raised by the meanings of ILLEGAL and REGWR on a term that `wellFormed` refuses and that stands for no transaction
  of the row; `decode` never answers one. Safe (log entry 9). -/
  | illFormed
deriving DecidableEq, Repr

/-- What running an instruction, or taking a step, answers. -/
abbrev Result := Host.Outcome State Fault Refusal

/-- The machine right after the reset event: every register at the reset value of R12 (R180), the window empty, and
nothing yet asked of the port. -/
def State.reset : State where
  code := .ok
  ferr := .ok
  ctrl := 0
  valLo := 0
  valHi := 0
  cnt := 0
  out0 := 0
  out1 := 0
  out2 := 0
  in0 := 0
  in1 := 0
  in2 := 0
  inlen := 0
  ptr := 0
  rd := 0
  scan := 0
  wr := 0
  fstart := 0
  flen := 0
  win := []
  pending := []
  resp := none

end Sys2Proof.Machine
end

