-- ==== Sys2Proof/Machine/Codec.lean ====
section
/-! DEFINITION. Machine/Codec.lean: the pure VarInt functions of spec/40_varint.md section 1 (R100, R101, R102), on
unbounded natural numbers as R8 reads them. -/

namespace Sys2Proof.Machine

open Sys2Proof

/-- The width of a VarInt (R70). -/
inductive Width where
  | w32
  | w64
deriving DecidableEq, Repr

/-- `W`, the width in bits. -/
def widthBits : Width → Nat
  | .w32 => 32
  | .w64 => 64

/-- `G_W`, the most groups a VarInt of the width has (R70). -/
def maxGroups : Width → Nat
  | .w32 => 5
  | .w64 => 10

/-- The least length from `n` on, at most `n + more`, whose groups hold `v`. -/
def lenFrom (v : Nat) : Nat → Nat → Nat
  | n, 0 => n
  | n, more + 1 => if v < 2 ^ (7 * n) then n else lenFrom v (n + 1) more

/-- `VarLen_W(v)`: the least `n >= 1` such that `v < 2^(7*n)` (R100). Only for `v < 2^W`, where `n` is at most `G_W`. -/
def varLen (w : Width) (v : Nat) : Nat := lenFrom v 1 (maxGroups w - 1)

/-- Group `j` of `v`: `(v >> (7*j)) & 0x7F` (R101). -/
def group (v j : Nat) : Nat := v / 2 ^ (7 * j) % 128

/-- Byte `j` of the `n`-byte encoding of `v`: its group, with the continuation bit 0x80 on all but the last (R101). -/
def encodedByte (v n j : Nat) : Byte :=
  BitVec.ofNat 8 (group v j + if j + 1 < n then 0x80 else 0)

/-- `VarEncode_W(v)` (R101). -/
def varEncode (w : Width) (v : Nat) : List Byte :=
  (List.range (varLen w v)).map (encodedByte v (varLen w v))

/-- The three results of `VarDecode` (R8, R102). -/
inductive Decoded where
  | ok (value k : Nat)
  | need
  | invalid
deriving DecidableEq, Repr

/-- What the loop of R102 ends with: it ran out of bytes, it met a continuation bit on byte `G`, or it met a terminating
byte after `k` bytes. -/
inductive Gathered where
  | ranOut
  | tooLong
  | done (acc k : Nat)
deriving DecidableEq, Repr

/-- The loop of R102, with `left` bytes still allowed, `i` read and `acc` gathered; it starts with `left = G`, so that no
byte is left exactly when `i == G`. -/
def gather (src : Nat → Byte) (avail : Nat) : Nat → Nat → Nat → Gathered
  | 0, _, _ => .tooLong
  | left + 1, i, acc =>
    if i = avail then .ranOut
    else
      let b := (src i).toNat
      let acc' := acc + b % 128 * 2 ^ (7 * i)
      if b < 128 then .done acc' (i + 1) else gather src avail left (i + 1) acc'

/-- `VarDecode_W(src, avail)` under the given CTRL.MINREQ and CTRL.HITRUNC (R102, R13). -/
def varDecode (w : Width) (minreq hitrunc : Bool) (src : Nat → Byte) (avail : Nat) : Decoded :=
  match gather src avail (maxGroups w) 0 0 with
  | .ranOut => .need
  | .tooLong => .invalid
  | .done acc k =>
    if 2 ^ widthBits w ≤ acc ∧ hitrunc = false then .invalid
    else
      let v := acc % 2 ^ widthBits w
      if minreq = true ∧ k ≠ varLen w v then .invalid else .ok v k

end Sys2Proof.Machine
end

