-- ==== Sys2Proof/Machine/Ops.lean ====
section
/-! DEFINITION. Machine/Ops.lean: the shared operations on positions, on the receive window, and on the registers. VCFD
takes no exceptions and returns from none (spec/60_exceptions.md R160, R168): the one way a command ends is `finish`, and
the one thing an error leaves behind besides its code is `latch` (R8, R163). -/

namespace Sys2Proof.Machine

open Sys2Proof

/-- `dist(a, b) = (b - a) mod 2^32` (R5). -/
def posDist (a b : Position) : Nat := (b - a).toNat

/-- `p` is in `[a, b)` (R5). -/
abbrev InHalfOpen (a b p : Position) : Prop := posDist a p < posDist a b

/-- `p` is in `[a, b]` (R5). -/
abbrev InClosed (a b p : Position) : Prop := posDist a p ≤ posDist a b

/-- `p + n` on a position: `(p + n) mod 2^32` (R5). -/
def advance (p : Position) (n : Nat) : Position := p + BitVec.ofNat 32 n

/-- What a storage position that nothing has written reads as (log entry 3). The spec leaves it open, and no rule reads
such a position (R57, R180). -/
def unwritten : Byte := 0

/-- The byte stored at address `n`. -/
def Memory.readAt : Memory → Nat → Byte
  | [], _ => unwritten
  | (a, b) :: m, n => if a = n then b else Memory.readAt m n

/-- Storing `b` at address `n`, keeping the canonical form. -/
def Memory.writeAt : Memory → Nat → Byte → Memory
  | [], n, b => if b = unwritten then [] else [(n, b)]
  | (a, c) :: m, n, b =>
    if n < a then (if b = unwritten then (a, c) :: m else (n, b) :: (a, c) :: m)
    else if n = a then (if b = unwritten then m else (n, b) :: m)
    else (a, c) :: Memory.writeAt m n b

/-- Every address of the storage lies above `n`. -/
def Memory.above (n : Nat) : Memory → Bool
  | [] => true
  | (a, _) :: m => decide (n < a) && Memory.above n m

/-- The canonical form: addresses are positions and strictly rise, and no entry holds what an unlisted one reads as. -/
def Memory.wf : Memory → Bool
  | [] => true
  | (a, b) :: m => decide (a < 2 ^ 32) && (b != unwritten) && Memory.above a m && Memory.wf m

/-- `WinRead(p)`: the byte most recently stored at position `p` (R58). -/
def winRead (s : State) (p : Position) : Byte := Memory.readAt s.win p.toNat

/-- `WinWrite(WR, b); WR <- WR + 1` (R59, R140). -/
def storeByte (b : Byte) (s : State) : State :=
  { s with win := Memory.writeAt s.win s.wr.toNat b, wr := advance s.wr 1 }

/-- `finish(code)`: STATUS.CODE <- code, and the command ends (R8, R160). -/
def finish (c : Code) (s : State) : State := { s with code := c }

/-- STATUS.FERR <- code. -/
def setFerr (c : Code) (s : State) : State := { s with ferr := c }

/-- `latch(code)`: STATUS.FERR <- code if STATUS.FERR is 0, and otherwise nothing (R163). -/
def latch (c : Code) (s : State) : State := if s.ferr = .ok then setFerr c s else s

/-- CNT <- n. -/
def setCnt (n : Nat) (s : State) : State := { s with cnt := BitVec.ofNat 32 n }

/-- VAL_HI <- hi; VAL_LO <- lo. -/
def setVal (hi lo : Word) (s : State) : State := { s with valHi := hi, valLo := lo }

/-- PTR <- p. -/
def setPtr (p : Position) (s : State) : State := { s with ptr := p }

/-- RD <- SCAN: the scanned bytes are no longer held (R131). -/
def releaseScanned (s : State) : State := { s with rd := s.scan }

/-- The register writes of an FDETECT that finds a frame: `k` prefix bytes, then `len` body bytes (R130). -/
def foundFrame (k len : Nat) (s : State) : State :=
  { s with
    fstart := advance s.scan k
    flen := BitVec.ofNat 32 len
    ptr := advance s.scan k
    cnt := BitVec.ofNat 32 k
    scan := advance s.scan (k + len) }

/-- Four bytes as a register, byte 0 in the least significant lane: `b3 << 24 | b2 << 16 | b1 << 8 | b0` (R53, R103). -/
def laneWord (b0 b1 b2 b3 : Byte) : Word :=
  b3.setWidth 32 <<< 24 ||| b2.setWidth 32 <<< 16 ||| b1.setWidth 32 <<< 8 ||| b0.setWidth 32

/-- `PutOut(s)`: the ten output bytes, 0x00 past the end of the sequence (R103, R21). -/
def putOut (bytes : List Byte) (s : State) : State :=
  { s with
    out0 := laneWord (bytes.getD 0 0) (bytes.getD 1 0) (bytes.getD 2 0) (bytes.getD 3 0)
    out1 := laneWord (bytes.getD 4 0) (bytes.getD 5 0) (bytes.getD 6 0) (bytes.getD 7 0)
    out2 := laneWord (bytes.getD 8 0) (bytes.getD 9 0) 0 0 }

/-- VAL_HI after a successful decode of `v`: `v[63:32]` at width 64, and 0 at width 32 (R104). -/
def decodedHi (w : Width) (v : Nat) : Word :=
  match w with
  | .w32 => 0
  | .w64 => BitVec.ofNat 32 (v / 2 ^ 32)

/-- `DecWriteback_W(r)` (R104): VAL and CNT on success, and the result code. It never touches STATUS.FERR. -/
def decWriteback (w : Width) (r : Decoded) (s : State) : State :=
  match r with
  | .ok v k => finish .ok (setCnt k (setVal (decodedHi w v) (BitVec.ofNat 32 v) s))
  | .need => finish .need s
  | .invalid => finish .evarint s

/-- `if r == Ok(v, k): PTR <- PTR + k` (R112). -/
def advancePtr (r : Decoded) (s : State) : State :=
  match r with
  | .ok _ k => setPtr (advance s.ptr k) s
  | .need => s
  | .invalid => s

/-- RXPUSH with a window of `cap` bytes: a full window discards the byte and latches EOVF (R140). -/
def pushByte (cap : Nat) (b : Byte) (s : State) : State :=
  if posDist s.rd s.wr = cap then latch .eovf s else storeByte b s

/-- The value the port gives back for a read; no register changes (R55; log entry 2). -/
def respond (v : Word) (s : State) : State := { s with resp := some v }

/-- The write of `wdata` to a register: the RW registers store it under their field rules, and a write to any other
register or to a reserved offset has no effect (R152; R13, R19, R22, R23, R26, R33). -/
def writeReg (r : Option Reg) (wdata : Word) (s : State) : State :=
  match r with
  | some .ctrl => { s with ctrl := (wdata.extractLsb' 0 2).setWidth 32 }
  | some .valLo => { s with valLo := wdata }
  | some .valHi => { s with valHi := wdata }
  | some .in0 => { s with in0 := wdata }
  | some .in1 => { s with in1 := wdata }
  | some .in2 => { s with in2 := wdata }
  | some .inlen => { s with inlen := if wdata.toNat ≤ 12 then wdata else 12 }
  | some .ptr => { s with ptr := wdata }
  | some .cmd => s
  | some .status => s
  | some .cnt => s
  | some .out0 => s
  | some .out1 => s
  | some .out2 => s
  | some .rxdata => s
  | some .rxpeek => s
  | some .rd => s
  | some .scan => s
  | some .wr => s
  | some .rxlvl => s
  | some .rxcap => s
  | some .fstart => s
  | some .flen => s
  | none => s

/-- The register writes of SRESET (R150): every register but CTRL takes its reset value. The window storage is not
cleared, but none of it is held. -/
def softReset (s : State) : State :=
  { s with
    valLo := 0, valHi := 0, cnt := 0
    out0 := 0, out1 := 0, out2 := 0
    in0 := 0, in1 := 0, in2 := 0, inlen := 0
    ptr := 0, rd := 0, scan := 0, wr := 0
    fstart := 0, flen := 0
    ferr := .ok, code := .ok }

end Sys2Proof.Machine
end

