-- ==== Sys2Proof/Machine/Operands.lean ====
section
/-! DEFINITION. Machine/Operands.lean: the operand forms of spec/30_encoding.md R73. -/

namespace Sys2Proof.Machine

open Sys2Proof

/-- The operand of the 32-bit commands: VAL_LO, unsigned (R19, R73). -/
def operand32 (s : State) : Nat := s.valLo.toNat

/-- The operand of the 64-bit commands: `VAL_HI * 2^32 + VAL_LO` (R19, R73). -/
def operand64 (s : State) : Nat := s.valHi.toNat * 2 ^ 32 + s.valLo.toNat

/-- Byte lane `j` of a register: bits `8*j+7 : 8*j` (R53). -/
def lane (r : Word) (j : Nat) : Byte := r.extractLsb' (8 * j) 8

/-- Input byte `in[i]`: lane `i mod 4` of register `IN(i div 4)` (R22). A decode reads no index above 9 (R102). -/
def inByte (s : State) (i : Nat) : Byte :=
  match i / 4 with
  | 0 => lane s.in0 (i % 4)
  | 1 => lane s.in1 (i % 4)
  | _ => lane s.in2 (i % 4)

/-- Output byte `out[i]`: lane `i mod 4` of register `OUT(i div 4)` (R21). -/
def outByte (s : State) (i : Nat) : Byte :=
  match i / 4 with
  | 0 => lane s.out0 (i % 4)
  | 1 => lane s.out1 (i % 4)
  | _ => lane s.out2 (i % 4)

/-- The window as a byte source from position `p` on: `i -> WinRead(p + i)` (R111, R130). -/
def winSource (s : State) (p : Position) (i : Nat) : Byte := winRead s (advance p i)

/-- CTRL.MINREQ (R13). -/
def minreq (s : State) : Bool := s.ctrl.getLsbD 0

/-- CTRL.HITRUNC (R13). -/
def hitrunc (s : State) : Bool := s.ctrl.getLsbD 1

/-- `VarDecode_W(src = (i -> in[i]), avail = INLEN)` (R109, R110). -/
def decodeIn (w : Width) (s : State) : Decoded :=
  varDecode w (minreq s) (hitrunc s) (inByte s) s.inlen.toNat

/-- `VarDecode_W` of the window bytes from `p` to WR (R111, R130). -/
def decodeWin (w : Width) (p : Position) (s : State) : Decoded :=
  varDecode w (minreq s) (hitrunc s) (winSource s p) (posDist p s.wr)

end Sys2Proof.Machine
end

