-- ==== Sys2Proof/Machine/Flags.lean ====
section
/-! DEFINITION. Machine/Flags.lean: the STATUS register and the other values computed at a read (spec/10_state.md R14 to
R17, R30, R38), and the value every register reads as (R52, R153). `cap` is the parameter RXCAP. -/

namespace Sys2Proof.Machine

open Sys2Proof

/-- The number of a result code (R161). -/
def codeBits : Code → BitVec 4
  | .ok => 0
  | .need => 1
  | .evarint => 2
  | .eframe => 3
  | .etoobig => 4
  | .eptr => 5
  | .eill => 6
  | .eovf => 7
  | .eeos => 8

/-- STATUS.RXEMPTY: `WR == RD` (R15). -/
def rxempty (s : State) : Bool := s.wr == s.rd

/-- STATUS.RXFULL: `dist(RD, WR) == RXCAP` (R15). -/
def rxfull (cap : Nat) (s : State) : Bool := decide (posDist s.rd s.wr = cap)

/-- STATUS.SCANPEND: `SCAN != WR` (R15). -/
def scanpend (s : State) : Bool := s.scan != s.wr

/-- A flag as a 32-bit number. -/
def flagWord (b : Bool) : Word := (BitVec.ofBool b).setWidth 32

/-- STATUS as a whole: `SCANPEND << 18 | RXFULL << 17 | RXEMPTY << 16 | FERR << 8 | CODE` (R17). -/
def statusWord (cap : Nat) (s : State) : Word :=
  flagWord (scanpend s) <<< 18 ||| flagWord (rxfull cap s) <<< 17 ||| flagWord (rxempty s) <<< 16
    ||| (codeBits s.ferr).setWidth 32 <<< 8 ||| (codeBits s.code).setWidth 32

/-- What a read of RXPEEK returns: `0x100 | WinRead(PTR)` if PTR is in `[RD, WR)`, else 0 (R141). -/
def peekWord (s : State) : Word :=
  if InHalfOpen s.rd s.wr s.ptr then 0x100 ||| (winRead s s.ptr).setWidth 32 else 0

/-- The value a register reads as; a reserved offset reads 0 (R52, R153; R18, R24, R33). -/
def readReg (cap : Nat) (r : Option Reg) (s : State) : Word :=
  match r with
  | some .cmd => 0
  | some .status => statusWord cap s
  | some .ctrl => s.ctrl
  | some .valLo => s.valLo
  | some .valHi => s.valHi
  | some .cnt => s.cnt
  | some .out0 => s.out0
  | some .out1 => s.out1
  | some .out2 => s.out2
  | some .in0 => s.in0
  | some .in1 => s.in1
  | some .in2 => s.in2
  | some .inlen => s.inlen
  | some .rxdata => 0
  | some .rxpeek => peekWord s
  | some .ptr => s.ptr
  | some .rd => s.rd
  | some .scan => s.scan
  | some .wr => s.wr
  | some .rxlvl => BitVec.ofNat 32 (posDist s.rd s.wr)
  | some .rxcap => BitVec.ofNat 32 cap
  | some .fstart => s.fstart
  | some .flen => s.flen
  | none => 0

end Sys2Proof.Machine
end

