-- ==== Sys2Proof/Machine/Varint.lean ====
section
/-! DEFINITION. Machine/Varint.lean: the VarInt codec commands (spec/40_varint.md R105 to R113). -/

namespace Sys2Proof.Machine

open Sys2Proof

/-- `s = VarEncode_W(v); PutOut(s); CNT <- |s|; finish(OK)` (R105, R106, R132). -/
def encodeOut (w : Width) (v : Nat) (s : State) : State :=
  finish .ok (setCnt (varEncode w v).length (putOut (varEncode w v) s))

/-- `CNT <- VarLen_W(v); finish(OK)` (R107, R108). -/
def lengthOut (w : Width) (v : Nat) (s : State) : State :=
  finish .ok (setCnt (varLen w v) s)

/-- A decode of the window at PTR: EPTR if PTR is not in `[RD, WR]`, else the decode's own result, with PTR moved past
the VarInt on success (R111, R112, R113). -/
def decodeAtPtr (w : Width) (s : State) : State :=
  if InClosed s.rd s.wr s.ptr then
    advancePtr (decodeWin w s.ptr s) (decWriteback w (decodeWin w s.ptr s) s)
  else finish .eptr s

/-- ENC32 (R105). -/
def execEnc32 (s : State) : Result := .next (encodeOut .w32 (operand32 s) s)

/-- ENC64 (R106). -/
def execEnc64 (s : State) : Result := .next (encodeOut .w64 (operand64 s) s)

/-- LEN32 (R107). -/
def execLen32 (s : State) : Result := .next (lengthOut .w32 (operand32 s) s)

/-- LEN64 (R108). -/
def execLen64 (s : State) : Result := .next (lengthOut .w64 (operand64 s) s)

/-- DEC32R (R109). -/
def execDec32r (s : State) : Result := .next (decWriteback .w32 (decodeIn .w32 s) s)

/-- DEC64R (R110). -/
def execDec64r (s : State) : Result := .next (decWriteback .w64 (decodeIn .w64 s) s)

/-- DEC32W (R112). -/
def execDec32w (s : State) : Result := .next (decodeAtPtr .w32 s)

/-- DEC64W (R113). -/
def execDec64w (s : State) : Result := .next (decodeAtPtr .w64 s)

end Sys2Proof.Machine
end

