-- ==== Sys2Proof/Machine/Frame.lean ====
section
/-! DEFINITION. Machine/Frame.lean: the frame boundary detector and the window port (spec/41_frame.md R130 to R133,
R140, R141). `cap` is the parameter RXCAP, which R2 has the model take as an argument. -/

namespace Sys2Proof.Machine

open Sys2Proof

/-- `latch(code); finish(code)`: a stream-fatal outcome (R130, R133, R163). -/
def failStream (c : Code) (s : State) : State := finish c (latch c s)

/-- FDETECT after its prefix is decoded, with the tests in the order of R130 and R165: the prefix incomplete, the prefix
malformed, length 0, a frame that can never fit, the body incomplete, and a frame found. -/
def judgeFrame (cap : Nat) (r : Decoded) (s : State) : State :=
  match r with
  | .need => finish .need s
  | .invalid => failStream .evarint s
  | .ok len k =>
    if len = 0 then failStream .eframe s
    else if cap < k + len then failStream .etoobig s
    else if posDist s.scan s.wr < k + len then finish .need s
    else finish .ok (foundFrame k len s)

/-- FDETECT (R130). The fault stands where R130 would read a position that is not held: R58 defines no value there, and
the first read, at SCAN, is undefined exactly if SCAN is not in `[RD, WR]` (log entry 6). -/
def detectFrame (cap : Nat) (s : State) : Result :=
  if s.ferr ≠ .ok then .next (finish s.ferr s)
  else if InClosed s.rd s.wr s.scan then .next (judgeFrame cap (decodeWin .w32 s.scan s) s)
  else .fault .undefinedWinRead

/-- FDETECT (R130). -/
def execFdetect (s : State) : Result := detectFrame Config.rxcap s

/-- FRELEASE: `RD <- SCAN; finish(OK)` (R131). -/
def execFrelease (s : State) : Result := .next (finish .ok (releaseScanned s))

/-- FHDR: the length prefix of a body of VAL_LO bytes; a body of none is refused with EFRAME, not latched (R132). -/
def execFhdr (s : State) : Result :=
  if operand32 s = 0 then .next (finish .eframe s)
  else .next (encodeOut .w32 (operand32 s) s)

/-- FEOS: the byte source has ended; unscanned bytes make that an error of the stream (R133). -/
def execFeos (s : State) : Result :=
  if s.ferr ≠ .ok then .next (finish s.ferr s)
  else if s.scan ≠ s.wr then .next (failStream .eeos s)
  else .next (finish .ok s)

/-- RXPUSH: push byte `wdata[7:0]`; `wdata[31:8]` is ignored (R140, R24). STATUS.CODE is not written (R14). -/
def execRxpush (wdata : Word) (s : State) : Result :=
  .next (pushByte Config.rxcap (wdata.extractLsb' 0 8) s)

/-- RXPEEK (R141). -/
def execRxpeek (s : State) : Result := .next (respond (peekWord s) s)

end Sys2Proof.Machine
end

