-- ==== Sys2Proof/Machine/System.lean ====
section
/-! DEFINITION. Machine/System.lean: soft reset, the illegal command, and register access (spec/42_system.md R150 to
R153). -/

namespace Sys2Proof.Machine

open Sys2Proof

/-- SRESET (R150): it runs whatever the state. -/
def execSreset (s : State) : Result := .next (softReset s)

/-- ILLEGAL: `finish(EILL)` (R151). A legal command word is no term of this row (log entry 9). -/
def execIllegal (w : Word) (s : State) : Result :=
  if legalCommand w = true then .refused .illFormed else .next (finish .eill s)

/-- REGWR (R152). A write to CMD or RXDATA is no term of this row (log entry 9). -/
def execRegwr (a : RegIndex) (wdata : Word) (s : State) : Result :=
  if a = cmdIndex ∨ a = rxdataIndex then .refused .illFormed else .next (writeReg (regAt a) wdata s)

/-- REGRD (R153): the port answers the register's value, and no register changes. -/
def execRegrd (a : RegIndex) (s : State) : Result :=
  .next (respond (readReg Config.rxcap (regAt a) s) s)

end Sys2Proof.Machine
end

