-- ==== Sys2Proof/Machine/Dispatch.lean ====
section
/-! DEFINITION. Machine/Dispatch.lean: one arm for each instruction. -/

namespace Sys2Proof.Machine

open Sys2Proof

def exec (i : Instr) (s : State) : Host.Outcome State Fault Refusal :=
  match i with
  | .enc32 => Sys2Proof.Machine.execEnc32 s
  | .enc64 => Sys2Proof.Machine.execEnc64 s
  | .len32 => Sys2Proof.Machine.execLen32 s
  | .len64 => Sys2Proof.Machine.execLen64 s
  | .dec32r => Sys2Proof.Machine.execDec32r s
  | .dec64r => Sys2Proof.Machine.execDec64r s
  | .dec32w => Sys2Proof.Machine.execDec32w s
  | .dec64w => Sys2Proof.Machine.execDec64w s
  | .fdetect => Sys2Proof.Machine.execFdetect s
  | .frelease => Sys2Proof.Machine.execFrelease s
  | .fhdr => Sys2Proof.Machine.execFhdr s
  | .feos => Sys2Proof.Machine.execFeos s
  | .sreset => Sys2Proof.Machine.execSreset s
  | .illegal w => Sys2Proof.Machine.execIllegal w s
  | .rxpush wdata => Sys2Proof.Machine.execRxpush wdata s
  | .rxpeek => Sys2Proof.Machine.execRxpeek s
  | .regwr a wdata => Sys2Proof.Machine.execRegwr a wdata s
  | .regrd a => Sys2Proof.Machine.execRegrd a s

end Sys2Proof.Machine
end

