-- ==== Sys2Proof/Machine/Port.lean ====
section
/-! DEFINITION. Machine/Port.lean: how the host's events reach the block, one at a time (spec/20_memory.md R60, R61;
spec/70_reset_and_hazards.md R180). -/

namespace Sys2Proof.Machine

open Sys2Proof

/-- The state in which an access runs: the access has left the port order, and the port answers nothing yet. -/
def beginAccess (rest : List HostEvent) (s : State) : State := { s with pending := rest, resp := none }

/-- The state after the reset event: the reset state, with the host's later events still to come (R180). -/
def afterReset (rest : List HostEvent) : State := { State.reset with pending := rest }

/-- `s` with the access `p` as the host's next event. -/
def issue (p : PortAccess) (s : State) : State := { s with pending := .access p :: s.pending }

end Sys2Proof.Machine
end

