-- ==== Sys2Proof/Machine/Step.lean ====
section
/-! DEFINITION. Machine/Step.lean: one step of the machine: the host's next event (spec/00_scope.md R1). -/

namespace Sys2Proof.Machine

open Sys2Proof

/-- One step: the next event of the port order takes effect entirely (R1, R60, R61). An access runs the instruction it
decodes to; the reset event sets the reset state. VCFD takes no step of its own, so with no event nothing changes. -/
def step (s : State) : Host.Outcome State Fault Refusal :=
  match s.pending with
  | [] => .next s
  | .reset :: rest => .next (afterReset rest)
  | .access p :: rest => exec (decode p) (beginAccess rest s)

/-- `s` with the access that a word of the opcode table stands for as the host's next event. -/
def State.withFetchWord (s : State) (nbits w : Nat) : State :=
  match tableAccess nbits w with
  | .ok p => issue p s
  | .error _ => s

end Sys2Proof.Machine
end

