-- ==== Sys2Proof/Safety.lean ====
section
/-! DEFINITION. Safety.lean: what counts as a sound state of VCFD (spec/10_state.md R34), what the data formats of R70,
R100 and R102 are apart from the functions that compute them, and what a host program's run shows: the terms the
statements use. -/

namespace Sys2Proof.Machine

open Sys2Proof

/-- The word index of the register at a byte offset: word `i` is at offset `4*i` (R12). -/
def wordIndex (off : Nat) : RegIndex := BitVec.ofNat 6 (off / 4)

/-- The codes STATUS.FERR can hold (R34(c)). -/
def latchable (c : Code) : Bool :=
  match c with
  | .ok => true
  | .need => false
  | .evarint => true
  | .eframe => true
  | .etoobig => true
  | .eptr => false
  | .eill => false
  | .eovf => true
  | .eeos => true

/-- The invariants (a) to (e) of R34, with the reserved bits of CTRL reading 0 (R13) and the storage in its canonical
form. STATUS.CODE is one of the nine codes by its type. -/
structure Sound (s : State) : Prop where
  scan_in_window : InClosed s.rd s.wr s.scan
  level_le_rxcap : posDist s.rd s.wr ≤ Config.rxcap
  ferr_latchable : latchable s.ferr = true
  inlen_le : s.inlen.toNat ≤ 12
  out2_high : s.out2.extractLsb' 16 16 = 0
  ctrl_reserved : s.ctrl.extractLsb' 2 30 = 0
  win_wf : Memory.wf s.win = true

/-- `n` is the least number, at least 1, with `v < 2^(7*n)`: the byte length of the canonical encoding of `v` (R100). -/
def IsVarLen (v n : Nat) : Prop :=
  1 ≤ n ∧ v < 2 ^ (7 * n) ∧ ∀ m, 1 ≤ m → v < 2 ^ (7 * m) → n ≤ m

/-- The value of the `k` bytes of a VarInt: the sum of `b_j[6:0] * 2^(7*j)` (R70). -/
def groupSum (src : Nat → Byte) (k : Nat) : Nat :=
  ((List.range k).map fun j => (src j).toNat % 128 * 2 ^ (7 * j)).sum

/-- A VarInt of `k` bytes stands at the start of the source: the continuation bit is set on all but the last byte (R70),
and `k` exceeds neither the bytes there are nor the groups a width allows. -/
def Terminates (src : Nat → Byte) (avail groups k : Nat) : Prop :=
  1 ≤ k ∧ k ≤ avail ∧ k ≤ groups ∧ (∀ j, j + 1 < k → 128 ≤ (src j).toNat) ∧ (src (k - 1)).toNat < 128

/-- What R102 returns, said of the bytes and not of its loop: `Need` when the source runs out with continuation bits all
along, `Invalid` on a continuation bit on byte `G`, on excess bits without HITRUNC, or on a non-canonical encoding under
MINREQ, and the value of the VarInt otherwise. -/
def DecodesAs (w : Width) (minreq hitrunc : Bool) (src : Nat → Byte) (avail : Nat) : Decoded → Prop
  | .need => avail < maxGroups w ∧ ∀ j, j < avail → 128 ≤ (src j).toNat
  | .ok v k =>
    Terminates src avail (maxGroups w) k ∧ v = groupSum src k % 2 ^ widthBits w ∧
      (groupSum src k < 2 ^ widthBits w ∨ hitrunc = true) ∧ (minreq = true → IsVarLen v k)
  | .invalid =>
    (maxGroups w ≤ avail ∧ ∀ j, j < maxGroups w → 128 ≤ (src j).toNat) ∨
      ∃ k, Terminates src avail (maxGroups w) k ∧
        ((2 ^ widthBits w ≤ groupSum src k ∧ hitrunc = false) ∨
          (minreq = true ∧ ¬ IsVarLen (groupSum src k % 2 ^ widthBits w) k))

/-- The output registers hold the `n`-byte canonical form of `v` and 0x00 past it: byte `j` is group `j` with the
continuation bit on all but the last (R101, R103). -/
def OutHolds (v n : Nat) (t : State) : Prop :=
  (∀ j, j < 10 → (outByte t j).toNat =
    if j < n then v / 2 ^ (7 * j) % 128 + (if j + 1 < n then 128 else 0) else 0) ∧
  t.out2.extractLsb' 16 16 = 0

/-- What a decode that answers `r` writes (R104). -/
def decodedState (w : Width) (r : Decoded) (s : State) : State :=
  match r with
  | .ok v k =>
    { s with
      valLo := BitVec.ofNat 32 v
      valHi := match w with | .w32 => 0 | .w64 => BitVec.ofNat 32 (v / 2 ^ 32)
      cnt := BitVec.ofNat 32 k
      code := .ok }
  | .need => { s with code := .need }
  | .invalid => { s with code := .evarint }

/-- The instructions that are commands: writes to CMD (R18, R72). -/
def isCommand (i : Instr) : Bool :=
  match i with
  | .enc32 => true
  | .enc64 => true
  | .len32 => true
  | .len64 => true
  | .dec32r => true
  | .dec64r => true
  | .dec32w => true
  | .dec64w => true
  | .fdetect => true
  | .frelease => true
  | .fhdr => true
  | .feos => true
  | .sreset => true
  | .illegal _ => true
  | .rxpush _ => false
  | .rxpeek => false
  | .regwr _ _ => false
  | .regrd _ => false

/-- The storage `m` holds what the window holds at those of the `n` positions from `p` on that are held (R56). -/
def AgreeOnHeld (s : State) (m : Memory) (p : Position) (n : Nat) : Prop :=
  ∀ i, i < n → InHalfOpen s.rd s.wr (advance p i) → Memory.readAt m (advance p i).toNat = winRead s (advance p i)

/-- What the receiving host does in R134(b): push a byte, or run FDETECT. -/
inductive Receive where
  | push (b : Byte)
  | detect
deriving DecidableEq, Repr

/-- The bytes pushed, in order. -/
def pushedBytes : List Receive → List Byte
  | [] => []
  | .push b :: es => b :: pushedBytes es
  | .detect :: es => pushedBytes es

/-- Running a receiving host: the last state, and for each FDETECT that returned OK the pair `(FSTART - base, FLEN)`
(R134(b)); none if an instruction stops. -/
def receive (base : Position) : List Receive → State → Option (State × List (Nat × Nat))
  | [], s => some (s, [])
  | .push b :: es, s =>
    match exec (.rxpush (b.setWidth 32)) s with
    | .next t => receive base es t
    | .fault _ => none
    | .refused _ => none
  | .detect :: es, s =>
    match exec .fdetect s with
    | .next t =>
      match receive base es t with
      | some (u, frames) =>
        some (u, if t.code = .ok then (posDist base t.fstart, t.flen.toNat) :: frames else frames)
      | none => none
    | .fault _ => none
    | .refused _ => none

/-- The wire bytes of frames with the given bodies (R71). -/
def wireFrames : List (List Byte) → List Byte
  | [] => []
  | body :: bodies => varEncode .w32 body.length ++ body ++ wireFrames bodies

/-- Where those frames' bodies lie, counted from the first wire byte, `off` bytes in, and how long they are. -/
def frameSpans (off : Nat) : List (List Byte) → List (Nat × Nat)
  | [] => []
  | body :: bodies =>
    (off + varLen .w32 body.length, body.length) ::
      frameSpans (off + varLen .w32 body.length + body.length) bodies

end Sys2Proof.Machine
end

