-- ==== Sys2Proof/Certificates/Slice0/Obligations.lean ====
section
/-! DEFINITION. Certificates/Slice0/Obligations.lean: the statements for the provers. Where a statement writes a next state
as `{ s with … }`, every field it does not name is unchanged, the storage of the receive window included. -/

open Sys2Proof Sys2Proof.Machine

/-! ## Encoding -/

/-- R72, R76: decoding what `encode` gives answers the instruction, for every well-formed instruction and every value of
its operands; and every transaction is the encoding of the well-formed instruction it decodes to. -/
def Obligations.DecodeAndEncodeAgree : Prop :=
  (∀ i : Instr, wellFormed i = true → decode (encode i) = i) ∧
    (∀ p : PortAccess, wellFormed (decode p) = true ∧ encode (decode p) = p)

/-- R72: the opcode map, its command words written out; R12: the offsets of the four port operations. -/
def Obligations.SpecWordsDecodeToTheirInstructions : Prop :=
  decode (.write 0 0x00000001) = .enc32 ∧ decode (.write 0 0x00000002) = .enc64 ∧
  decode (.write 0 0x00000003) = .len32 ∧ decode (.write 0 0x00000004) = .len64 ∧
  decode (.write 0 0x00000005) = .dec32r ∧ decode (.write 0 0x00000006) = .dec64r ∧
  decode (.write 0 0x00000007) = .dec32w ∧ decode (.write 0 0x00000008) = .dec64w ∧
  decode (.write 0 0x00000010) = .fdetect ∧ decode (.write 0 0x00000011) = .frelease ∧
  decode (.write 0 0x00000012) = .fhdr ∧ decode (.write 0 0x00000013) = .feos ∧
  decode (.write 0 0x0000001F) = .sreset ∧ decode (.write 0 0x00000101) = .illegal 0x101 ∧
  decode (.write (wordIndex 0x34) 0xFFFFFF41) = .rxpush 0xFFFFFF41 ∧ decode (.read (wordIndex 0x38)) = .rxpeek ∧
  decode (.write (wordIndex 0x08) 3) = .regwr 2 3 ∧ decode (.read (wordIndex 0x04)) = .regrd 1

/-- R74, R151: a command word is illegal exactly if its bits 31:8 are not zero or its opcode is a reserved one, and such
a word sets STATUS.CODE to EILL and changes nothing else. -/
def Obligations.IllegalWordOnlyReportsEill : Prop :=
  ∀ (w : Word) (s : State),
    (decode (.write 0 w) = .illegal w ↔
      w.toNat / 256 ≠ 0 ∨ w.toNat = 0 ∨ (0x09 ≤ w.toNat ∧ w.toNat ≤ 0x0F) ∨
        (0x14 ≤ w.toNat ∧ w.toNat ≤ 0x1E) ∨ (0x20 ≤ w.toNat ∧ w.toNat ≤ 0xFF)) ∧
    (decode (.write 0 w) = .illegal w → exec (.illegal w) s = .next { s with code := .eill })

/-! ## Steps and reset -/

/-- R60, R61: a step with an access next runs the instruction the access decodes to, in the state where the access has
left the port order and the port answers nothing yet (log entries 1 and 2). -/
def Obligations.StepRunsTheDecodedInstruction : Prop :=
  ∀ (s : State) (p : PortAccess) (rest : List HostEvent) (i : Instr),
    s.pending = .access p :: rest → decode p = i →
      wellFormed i = true ∧ step s = exec i { s with pending := rest, resp := none }

/-- R180: the reset event sets every register to its reset value; STATUS then reads 0x0001_0000, RXLVL reads 0, RXCAP
reads the parameter, and the window is empty. The host's later events stay (log entry 1). -/
def Obligations.ResetEventSetsEveryRegister : Prop :=
  ∀ (s : State) (rest : List HostEvent), s.pending = .reset :: rest →
    ∃ t, step s = .next t ∧
      t.ctrl = 0 ∧ t.valLo = 0 ∧ t.valHi = 0 ∧ t.cnt = 0 ∧ t.out0 = 0 ∧ t.out1 = 0 ∧ t.out2 = 0 ∧
      t.in0 = 0 ∧ t.in1 = 0 ∧ t.in2 = 0 ∧ t.inlen = 0 ∧ t.ptr = 0 ∧ t.rd = 0 ∧ t.scan = 0 ∧ t.wr = 0 ∧
      t.fstart = 0 ∧ t.flen = 0 ∧ t.code = .ok ∧ t.ferr = .ok ∧ t.pending = rest ∧
      readReg Config.rxcap (some .status) t = 0x00010000 ∧ readReg Config.rxcap (some .rxlvl) t = 0 ∧
      (readReg Config.rxcap (some .rxcap) t).toNat = Config.rxcap ∧
      (∀ p, ¬ InHalfOpen t.rd t.wr p)

/-- The model's choice of log entry 1: with no event of the host's, a step changes nothing (R1: the block takes no step
of its own). -/
def Obligations.NothingHappensWithoutTheHost : Prop :=
  ∀ s : State, s.pending = [] → step s = .next s

/-- Log entries 7 and 8: a table word that decodes is what the very next step runs. -/
def Obligations.FetchWordIsRunNext : Prop :=
  ∀ (s : State) (nbits w : Nat) (i : Instr), decodeTableWord nbits w = some i →
    step (s.withFetchWord nbits w) = exec i { s with resp := none }

/-- R34: the invariants hold at reset. -/
def Obligations.ResetStateIsSound : Prop := Sound State.reset

/-- R34: every rule that writes the registers of the invariants preserves them: from every sound state, a step that
answers a next state answers a sound one. -/
def Obligations.EveryStepKeepsSoundness : Prop :=
  ∀ s t : State, Sound s → step s = .next t → Sound t

/-- R160, R66: VCFD never traps: in every state that satisfies R34's invariants every step answers a next state. No
instruction faults there, so none reads the window outside `[RD, WR)`. -/
def Obligations.SoundStatesNeverStop : Prop :=
  ∀ s : State, Sound s → ∃ t, step s = .next t

/-- R60, R160, R34: from every sound state the host's events, whatever they are, all take effect: the run over them ends
in a sound state with none left, and nothing on the way stops. -/
def Obligations.HostProgramsRunToTheEnd : Prop :=
  ∀ s : State, Sound s →
    ∃ t, Host.Core.run Sys2Proof.core s.pending.length s = .next t ∧ t.pending = [] ∧ Sound t

/-- R2, R38: RXCAP is a number of its range, and register RXCAP reads it back in every state. -/
def Obligations.RxcapReadsTheParameter : Prop :=
  16 ≤ Config.rxcap ∧ Config.rxcap ≤ 2 ^ 31 ∧
    ∀ s : State, ∃ v, exec (.regrd (wordIndex 0x50)) s = .next { s with resp := some v } ∧ v.toNat = Config.rxcap

/-! ## The VarInt codec -/

/-- R100: `VarLen_W(v)` is the least `n >= 1` such that `v < 2^(7*n)`, at most 5 at width 32 and at most 10 at 64. -/
def Obligations.VarLenIsLeast : Prop :=
  ∀ (w : Width) (v : Nat), v < 2 ^ widthBits w → IsVarLen v (varLen w v) ∧ varLen w v ≤ maxGroups w

/-- R102: VarDecode answers exactly what the bytes call for: the result is the one and only one that `DecodesAs` admits. -/
def Obligations.VarDecodeAnswersWhatTheBytesSay : Prop :=
  ∀ (w : Width) (mr ht : Bool) (src : Nat → Byte) (avail : Nat) (r : Decoded),
    DecodesAs w mr ht src avail r ↔ r = varDecode w mr ht src avail

/-- R114(a): decoding the encoding of `v` gives `v` back with its canonical length, under every value of CTRL. -/
def Obligations.VarintRoundTrip : Prop :=
  ∀ (w : Width) (mr ht : Bool) (v : Nat), v < 2 ^ widthBits w →
    varDecode w mr ht (fun j => (varEncode w v).getD j 0) (varEncode w v).length = .ok v (varLen w v)

/-- R114(b), R101: the encoding of `v` has `VarLen_W(v)` bytes, no VarInt with the same value is shorter, and the last
byte of an encoding longer than one byte is not 0x00. -/
def Obligations.VarintEncodingIsMinimal : Prop :=
  ∀ (w : Width) (v : Nat), v < 2 ^ widthBits w →
    (varEncode w v).length = varLen w v ∧
    (∀ (src : Nat → Byte) (k : Nat), 1 ≤ k → groupSum src k = v → varLen w v ≤ k) ∧
    (1 < varLen w v → (varEncode w v).getD (varLen w v - 1) 0 ≠ 0)

/-- R114(c), (d): more bytes after the first `a` never change an `Ok` or `Invalid`, and `Need` means that fewer than `G`
bytes were there. -/
def Obligations.DecodeIsPrefixStable : Prop :=
  ∀ (w : Width) (mr ht : Bool) (src src' : Nat → Byte) (a a' : Nat),
    a ≤ a' → (∀ j, j < a → src' j = src j) →
    (varDecode w mr ht src a = .need → a < maxGroups w) ∧
    (varDecode w mr ht src a ≠ .need → varDecode w mr ht src' a' = varDecode w mr ht src a)

/-- R21, R22, R53: byte `j` of a byte sequence is at bits `8*(j mod 4)+7 : 8*(j mod 4)` of register `j div 4`. -/
def Obligations.ByteLanesAreLittleEndian : Prop :=
  ∀ (s : State) (j b : Nat), j < 12 → b < 8 →
    (inByte s j).getLsbD b = ([s.in0, s.in1, s.in2].getD (j / 4) 0).getLsbD (8 * (j % 4) + b) ∧
    (outByte s j).getLsbD b = ([s.out0, s.out1, s.out2].getD (j / 4) 0).getLsbD (8 * (j % 4) + b)

/-- R105: ENC32 completes in every state: OUT holds the canonical encoding of VAL_LO, zero past its end, CNT its length,
CODE is OK, and nothing else changes. -/
def Obligations.Enc32EncodesValLo : Prop :=
  ∀ s : State, ∃ t n, exec .enc32 s = .next t ∧
    IsVarLen s.valLo.toNat n ∧ n ≤ 5 ∧ OutHolds s.valLo.toNat n t ∧
    t = { s with out0 := t.out0, out1 := t.out1, out2 := t.out2, cnt := BitVec.ofNat 32 n, code := .ok } ∧
    ∀ p, winRead t p = winRead s p

/-- R106: ENC64 completes in every state, as ENC32, for the value `VAL_HI * 2^32 + VAL_LO`. -/
def Obligations.Enc64EncodesVal : Prop :=
  ∀ s : State, ∃ t n, exec .enc64 s = .next t ∧
    IsVarLen (s.valHi.toNat * 2 ^ 32 + s.valLo.toNat) n ∧ n ≤ 10 ∧
    OutHolds (s.valHi.toNat * 2 ^ 32 + s.valLo.toNat) n t ∧
    t = { s with out0 := t.out0, out1 := t.out1, out2 := t.out2, cnt := BitVec.ofNat 32 n, code := .ok } ∧
    ∀ p, winRead t p = winRead s p

/-- R107, R108: LEN32 and LEN64 complete in every state: CNT is the canonical length of the operand, CODE is OK, and
nothing else changes. -/
def Obligations.LenCommandsCountCanonicalBytes : Prop :=
  ∀ s : State,
    (∃ n, IsVarLen s.valLo.toNat n ∧
      exec .len32 s = .next { s with cnt := BitVec.ofNat 32 n, code := .ok }) ∧
    (∃ n, IsVarLen (s.valHi.toNat * 2 ^ 32 + s.valLo.toNat) n ∧
      exec .len64 s = .next { s with cnt := BitVec.ofNat 32 n, code := .ok })

/-- R109, R110: DEC32R and DEC64R complete in every state, with the result R102 gives for the first INLEN bytes of
`in[]` under CTRL, written as R104 says; nothing else changes. -/
def Obligations.DecodeFromInRegisters : Prop :=
  ∀ s : State,
    (∃ r, DecodesAs .w32 (s.ctrl.getLsbD 0) (s.ctrl.getLsbD 1) (inByte s) s.inlen.toNat r ∧
      exec .dec32r s = .next (decodedState .w32 r s)) ∧
    (∃ r, DecodesAs .w64 (s.ctrl.getLsbD 0) (s.ctrl.getLsbD 1) (inByte s) s.inlen.toNat r ∧
      exec .dec64r s = .next (decodedState .w64 r s))

/-- R111, R112, R113: with PTR in `[RD, WR]`, DEC32W and DEC64W complete with the result R102 gives for the window bytes
from PTR to WR, written as R104 says, and on success PTR moves past the VarInt; with PTR outside, they report EPTR.
Nothing else changes. -/
def Obligations.DecodeFromWindowAtPtr : Prop :=
  ∀ s : State,
    (InClosed s.rd s.wr s.ptr →
      (∃ r, DecodesAs .w32 (s.ctrl.getLsbD 0) (s.ctrl.getLsbD 1)
          (fun i => winRead s (s.ptr + BitVec.ofNat 32 i)) (posDist s.ptr s.wr) r ∧
        exec .dec32w s = .next (match r with
          | .ok _ k => { decodedState .w32 r s with ptr := s.ptr + BitVec.ofNat 32 k }
          | .need => decodedState .w32 r s
          | .invalid => decodedState .w32 r s)) ∧
      (∃ r, DecodesAs .w64 (s.ctrl.getLsbD 0) (s.ctrl.getLsbD 1)
          (fun i => winRead s (s.ptr + BitVec.ofNat 32 i)) (posDist s.ptr s.wr) r ∧
        exec .dec64w s = .next (match r with
          | .ok _ k => { decodedState .w64 r s with ptr := s.ptr + BitVec.ofNat 32 k }
          | .need => decodedState .w64 r s
          | .invalid => decodedState .w64 r s))) ∧
    (¬ InClosed s.rd s.wr s.ptr →
      exec .dec32w s = .next { s with code := .eptr } ∧ exec .dec64w s = .next { s with code := .eptr })

/-- R66: a decode that succeeds in the window has read only held bytes, 1 to 5 of them for DEC32W and 1 to 10 for
DEC64W: PTR stays in the window, and every position it passes is in `[RD, WR)`. -/
def Obligations.WindowDecodeReadsOnlyHeldBytes : Prop :=
  ∀ s t : State, t.code = .ok →
    (exec .dec32w s = .next t →
      InClosed s.rd s.wr t.ptr ∧ 1 ≤ posDist s.ptr t.ptr ∧ posDist s.ptr t.ptr ≤ 5 ∧
        ∀ i, i < posDist s.ptr t.ptr → InHalfOpen s.rd s.wr (s.ptr + BitVec.ofNat 32 i)) ∧
    (exec .dec64w s = .next t →
      InClosed s.rd s.wr t.ptr ∧ 1 ≤ posDist s.ptr t.ptr ∧ posDist s.ptr t.ptr ≤ 10 ∧
        ∀ i, i < posDist s.ptr t.ptr → InHalfOpen s.rd s.wr (s.ptr + BitVec.ofNat 32 i))

/-- R66: whatever they end in, DEC32W, DEC64W, FDETECT and RXPEEK depend on no byte of the storage but the held ones among
the first 5 (10 for DEC64W, 1 for RXPEEK) at PTR, or at SCAN for FDETECT: with any storage `m` that agrees with the
window's there, a state runs to the same next state, with `m` untouched. -/
def Obligations.WindowCommandsReadOnlyTheirBytes : Prop :=
  ∀ (s t : State) (m : Memory),
    (AgreeOnHeld s m s.ptr 5 → exec .dec32w s = .next t →
      exec .dec32w { s with win := m } = .next { t with win := m }) ∧
    (AgreeOnHeld s m s.ptr 10 → exec .dec64w s = .next t →
      exec .dec64w { s with win := m } = .next { t with win := m }) ∧
    (AgreeOnHeld s m s.scan 5 → exec .fdetect s = .next t →
      exec .fdetect { s with win := m } = .next { t with win := m }) ∧
    (AgreeOnHeld s m s.ptr 1 → exec .rxpeek s = .next t →
      exec .rxpeek { s with win := m } = .next { t with win := m })

/-! ## The frame detector -/

/-- R130, R165: FDETECT, its tests in their order: a latched error repeated, the prefix incomplete, malformed, length 0,
a frame that can never fit, the body incomplete, and the frame found. Whole next state for each; every state but those
R34(a) rules out, in which no error is latched and SCAN is outside the window. -/
def Obligations.FdetectTestsInOrder : Prop :=
  ∀ s : State, (s.ferr = .ok → InClosed s.rd s.wr s.scan) →
    ∃ r, DecodesAs .w32 (s.ctrl.getLsbD 0) (s.ctrl.getLsbD 1)
        (fun i => winRead s (s.scan + BitVec.ofNat 32 i)) (posDist s.scan s.wr) r ∧
      exec .fdetect s = .next (
        if s.ferr ≠ .ok then { s with code := s.ferr }
        else match r with
          | .need => { s with code := .need }
          | .invalid => { s with code := .evarint, ferr := .evarint }
          | .ok len k =>
            if len = 0 then { s with code := .eframe, ferr := .eframe }
            else if Config.rxcap < k + len then { s with code := .etoobig, ferr := .etoobig }
            else if posDist s.scan s.wr < k + len then { s with code := .need }
            else
              { s with
                fstart := s.scan + BitVec.ofNat 32 k
                flen := BitVec.ofNat 32 len
                ptr := s.scan + BitVec.ofNat 32 k
                cnt := BitVec.ofNat 32 k
                scan := s.scan + BitVec.ofNat 32 (k + len)
                code := .ok })

/-- R130: FDETECT completes with a frame: no error latched, SCAN in the window, a whole frame of a legal length that fits
held at SCAN. -/
def Obligations.FdetectFindsAWholeFrame : Prop :=
  ∀ (s : State) (len k : Nat), s.ferr = .ok → InClosed s.rd s.wr s.scan →
    DecodesAs .w32 (s.ctrl.getLsbD 0) (s.ctrl.getLsbD 1)
      (fun i => winRead s (s.scan + BitVec.ofNat 32 i)) (posDist s.scan s.wr) (.ok len k) →
    1 ≤ len → k + len ≤ Config.rxcap → k + len ≤ posDist s.scan s.wr →
    exec .fdetect s = .next
      { s with
        fstart := s.scan + BitVec.ofNat 32 k
        flen := BitVec.ofNat 32 len
        ptr := s.scan + BitVec.ofNat 32 k
        cnt := BitVec.ofNat 32 k
        scan := s.scan + BitVec.ofNat 32 (k + len)
        code := .ok }

/-- The model's choice of log entry 6: where R130 would read a position that is not held, for which R58 defines no
value, FDETECT stops; and that is the only way it stops. -/
def Obligations.FdetectStopsOnlyOnUndefinedReads : Prop :=
  ∀ s : State,
    (exec .fdetect s = .fault .undefinedWinRead ↔ s.ferr = .ok ∧ ¬ InClosed s.rd s.wr s.scan) ∧
    ((∃ t, exec .fdetect s = .next t) ↔ (s.ferr = .ok → InClosed s.rd s.wr s.scan))

/-- R134(a): what FDETECT does depends only on FERR, CTRL, SCAN, the bytes at `[SCAN, WR)` and their number (and the
parameter RXCAP): two states that agree on those give the same code, the same latch and, if a frame is found, the same
frame. -/
def Obligations.FdetectIsLocal : Prop :=
  ∀ s s' t t' : State, s.ferr = s'.ferr → s.ctrl = s'.ctrl → s.scan = s'.scan →
    posDist s.scan s.wr = posDist s'.scan s'.wr →
    (∀ i, i < posDist s.scan s.wr →
      winRead s (s.scan + BitVec.ofNat 32 i) = winRead s' (s'.scan + BitVec.ofNat 32 i)) →
    exec .fdetect s = .next t → exec .fdetect s' = .next t' →
      t.code = t'.code ∧ t.ferr = t'.ferr ∧ t.scan = t'.scan ∧
        (t.code = .ok → t.fstart = t'.fstart ∧ t.flen = t'.flen ∧ t.ptr = t'.ptr ∧ t.cnt = t'.cnt)

/-- R131: FRELEASE completes in every state: RD takes SCAN's value, CODE is OK, and nothing else changes. -/
def Obligations.FreleaseMovesRdToScan : Prop :=
  ∀ s : State, exec .frelease s = .next { s with rd := s.scan, code := .ok }

/-- R132: FHDR with a length of at least 1 completes with the canonical encoding of VAL_LO in OUT and its length in CNT,
bit for bit as ENC32; with length 0 it reports EFRAME, latches nothing, and leaves OUT and CNT unchanged. -/
def Obligations.FhdrEncodesALegalLength : Prop :=
  ∀ s : State,
    (s.valLo ≠ 0 → exec .fhdr s = exec .enc32 s ∧
      ∃ t n, exec .fhdr s = .next t ∧ IsVarLen s.valLo.toNat n ∧ OutHolds s.valLo.toNat n t ∧
        t = { s with out0 := t.out0, out1 := t.out1, out2 := t.out2, cnt := BitVec.ofNat 32 n, code := .ok }) ∧
    (s.valLo = 0 → exec .fhdr s = .next { s with code := .eframe })

/-- R133: FEOS completes in every state: a latched error is repeated; else unscanned bytes give EEOS, latched; else OK.
Nothing else changes. -/
def Obligations.FeosReportsTheEndOfStream : Prop :=
  ∀ s : State, exec .feos s = .next (
    if s.ferr ≠ .ok then { s with code := s.ferr }
    else if s.scan ≠ s.wr then { s with code := .eeos, ferr := .eeos }
    else { s with code := .ok })

/-- R140: RXPUSH completes in every state (with its storage in the canonical form). With room, `wdata[7:0]` is stored at
WR and WR moves on by 1; every other byte of the storage and every other register is unchanged, STATUS.CODE among them.
On a full window the byte is discarded, and EOVF is latched if nothing was. -/
def Obligations.RxpushStoresOrOverflows : Prop :=
  ∀ (s : State) (wdata : Word), Memory.wf s.win = true →
    (posDist s.rd s.wr = Config.rxcap →
      exec (.rxpush wdata) s = .next { s with ferr := if s.ferr = .ok then .eovf else s.ferr }) ∧
    (posDist s.rd s.wr ≠ Config.rxcap →
      ∃ t, exec (.rxpush wdata) s = .next t ∧ t = { s with win := t.win, wr := s.wr + 1 } ∧
        (winRead t s.wr).toNat = wdata.toNat % 256 ∧ (∀ p, p ≠ s.wr → winRead t p = winRead s p) ∧
        Memory.wf t.win = true)

/-- R141: RXPEEK completes in every state: it returns the byte at PTR with bit 8 set if PTR is in `[RD, WR)`, and 0
otherwise, and changes nothing else. -/
def Obligations.RxpeekReturnsTheByteAtPtr : Prop :=
  ∀ s : State, ∃ v, exec .rxpeek s = .next { s with resp := some v } ∧
    (InHalfOpen s.rd s.wr s.ptr → v.toNat = 256 + (winRead s s.ptr).toNat) ∧
    (¬ InHalfOpen s.rd s.wr s.ptr → v = 0)

/-- R59, R185: no instruction disturbs a held byte, and a held byte stays held under every instruction but FRELEASE and
SRESET. -/
def Obligations.HeldBytesAreNeverDisturbed : Prop :=
  ∀ (i : Instr) (s t : State) (p : Position), Sound s → exec i s = .next t → InHalfOpen s.rd s.wr p →
    winRead t p = winRead s p ∧ (i ≠ .frelease → i ≠ .sreset → InHalfOpen t.rd t.wr p)

/-- R184: when the window is full and FDETECT returns NEED, RD is not SCAN: there is something to release. -/
def Obligations.FullWindowNeedMeansReleasable : Prop :=
  ∀ s t : State, Sound s → posDist s.rd s.wr = Config.rxcap → exec .fdetect s = .next t → t.code = .need →
    s.rd ≠ s.scan

/-- R134(c): pushing the canonical prefix and the body of a frame that fits, from an empty scan, makes the next FDETECT
find it, with the body readable at `[FSTART, FSTART + FLEN)`, under every value of CTRL. -/
def Obligations.FramerRoundTrip : Prop :=
  ∀ (s : State) (body : List Byte), Sound s → s.ferr = .ok → s.scan = s.wr → 1 ≤ body.length →
    posDist s.rd s.wr + varLen .w32 body.length + body.length ≤ Config.rxcap →
    ∃ t, receive s.scan ((varEncode .w32 body.length ++ body).map Receive.push ++ [.detect]) s
        = some (t, [(varLen .w32 body.length, body.length)]) ∧
      t.code = .ok ∧ t.fstart = s.scan + BitVec.ofNat 32 (varLen .w32 body.length) ∧
      t.flen.toNat = body.length ∧
      ∀ i (h : i < body.length), InHalfOpen t.rd t.wr (t.fstart + BitVec.ofNat 32 i) ∧
        winRead t (t.fstart + BitVec.ofNat 32 i) = body[i]

/-- R134(b), R65: push a stream of frames in any split, with any FDETECTs in between; if no push overflows and nothing is
latched, and the FDETECTs run until NEED after the last push, then the frames found are the frames of the stream, in
order, whatever the split. -/
def Obligations.PartialDeliveryFindsTheSameFrames : Prop :=
  ∀ (s t : State) (events : List Receive) (bodies : List (List Byte)) (frames : List (Nat × Nat)),
    Sound s → s.ferr = .ok → s.scan = s.wr → (∀ b ∈ bodies, 1 ≤ b.length) →
    pushedBytes events = wireFrames bodies →
    receive s.scan (events ++ [.detect]) s = some (t, frames) → t.ferr = .ok → t.code = .need →
    frames = frameSpans 0 bodies

/-! ## System and registers -/

/-- R150, R182: SRESET completes in every state: every register but CTRL takes its reset value, the storage is not
cleared, STATUS reads 0x0001_0000, and a second SRESET changes nothing. -/
def Obligations.SresetKeepsOnlyCtrl : Prop :=
  ∀ s : State, ∃ t,
    exec .sreset s = .next t ∧
    t = { State.reset with ctrl := s.ctrl, win := s.win, pending := s.pending, resp := s.resp } ∧
    readReg Config.rxcap (some .status) t = 0x00010000 ∧ exec .sreset t = .next t

/-- R152, R13, R23: REGWR completes at every offset but CMD's and RXDATA's: the eight RW registers store the data under
their field rules, and at every other offset nothing changes. -/
def Obligations.RegisterWritesStoreUnderFieldRules : Prop :=
  ∀ (s : State) (wdata : Word),
    exec (.regwr (wordIndex 0x08) wdata) s = .next { s with ctrl := BitVec.ofNat 32 (wdata.toNat % 4) } ∧
    exec (.regwr (wordIndex 0x0C) wdata) s = .next { s with valLo := wdata } ∧
    exec (.regwr (wordIndex 0x10) wdata) s = .next { s with valHi := wdata } ∧
    exec (.regwr (wordIndex 0x24) wdata) s = .next { s with in0 := wdata } ∧
    exec (.regwr (wordIndex 0x28) wdata) s = .next { s with in1 := wdata } ∧
    exec (.regwr (wordIndex 0x2C) wdata) s = .next { s with in2 := wdata } ∧
    exec (.regwr (wordIndex 0x30) wdata) s = .next { s with inlen := BitVec.ofNat 32 (min wdata.toNat 12) } ∧
    exec (.regwr (wordIndex 0x3C) wdata) s = .next { s with ptr := wdata } ∧
    ∀ a : RegIndex, a ∉ [0x00, 0x34, 0x08, 0x0C, 0x10, 0x24, 0x28, 0x2C, 0x30, 0x3C].map wordIndex →
      exec (.regwr a wdata) s = .next s

/-- R153, R12, R33: REGRD completes at every offset: the port answers the register of R12's map, 0 for CMD, RXDATA and
the reserved offsets, and nothing else changes. (STATUS, RXPEEK and RXCAP: the statements of their own.) -/
def Obligations.RegisterReadsFollowTheMap : Prop :=
  ∀ s : State,
    (∀ ar ∈ ([(wordIndex 0x00, 0), (wordIndex 0x08, s.ctrl), (wordIndex 0x0C, s.valLo), (wordIndex 0x10, s.valHi), (wordIndex 0x14, s.cnt),
        (wordIndex 0x18, s.out0), (wordIndex 0x1C, s.out1), (wordIndex 0x20, s.out2), (wordIndex 0x24, s.in0), (wordIndex 0x28, s.in1),
        (wordIndex 0x2C, s.in2), (wordIndex 0x30, s.inlen), (wordIndex 0x34, 0), (wordIndex 0x3C, s.ptr), (wordIndex 0x40, s.rd),
        (wordIndex 0x44, s.scan), (wordIndex 0x48, s.wr), (wordIndex 0x4C, s.wr - s.rd), (wordIndex 0x54, s.fstart),
        (wordIndex 0x58, s.flen)] : List (RegIndex × Word)),
      exec (.regrd ar.1) s = .next { s with resp := some ar.2 }) ∧
    (∀ a : RegIndex, 0x5C ≤ 4 * a.toNat → exec (.regrd a) s = .next { s with resp := some 0 }) ∧
    exec (.regrd (wordIndex 0x38)) s = exec .rxpeek s

/-- R15, R17, R161: a read of STATUS returns the code and the latch by their numbers, the three flags computed from the
cursors, and 0 in every reserved bit; and changes nothing. -/
def Obligations.StatusReadsCodesAndFlags : Prop :=
  ∀ s : State, ∃ v : Word, exec (.regrd (wordIndex 0x04)) s = .next { s with resp := some v } ∧
    v.toNat = (if s.scan = s.wr then 0 else 2 ^ 18) + (if posDist s.rd s.wr = Config.rxcap then 2 ^ 17 else 0) +
      (if s.wr = s.rd then 2 ^ 16 else 0) + (codeBits s.ferr).toNat * 2 ^ 8 + (codeBits s.code).toNat ∧
    [Code.ok, .need, .evarint, .eframe, .etoobig, .eptr, .eill, .eovf, .eeos].map (fun c => (codeBits c).toNat)
      = [0, 1, 2, 3, 4, 5, 6, 7, 8]

/-! ## Whole-machine rules -/

/-- R55: no read has a side effect, and reads are idempotent: a step that takes a read answers, changes nothing of the
block, and the same read next answers the same value. -/
def Obligations.ReadsChangeNothingAndRepeat : Prop :=
  ∀ (s : State) (a : RegIndex) (rest : List HostEvent),
    s.pending = .access (.read a) :: .access (.read a) :: rest →
    ∃ v, step s = .next { s with pending := .access (.read a) :: rest, resp := some v } ∧
      step { s with pending := .access (.read a) :: rest, resp := some v }
        = .next { s with pending := rest, resp := some v }

/-- R160: every command is all-or-nothing: an outcome other than OK changes only STATUS.CODE and, through the latch,
STATUS.FERR. -/
def Obligations.FailedCommandsChangeOnlyStatus : Prop :=
  ∀ (i : Instr) (s t : State), isCommand i = true → exec i s = .next t → t.code ≠ .ok →
    t = { s with code := t.code, ferr := t.ferr }

/-- R14: a port access that is not a write to CMD never changes STATUS.CODE. -/
def Obligations.OnlyCommandsWriteCode : Prop :=
  ∀ (i : Instr) (s t : State), isCommand i = false → exec i s = .next t → t.code = s.code

/-- R163: once FERR is non-zero it keeps its value under every instruction but SRESET, and while it is non-zero FDETECT
and FEOS do nothing but report it. -/
def Obligations.FatalLatchIsSticky : Prop :=
  ∀ s : State, s.ferr ≠ .ok →
    (∀ (i : Instr) (t : State), exec i s = .next t → i ≠ .sreset → t.ferr = s.ferr) ∧
    exec .fdetect s = .next { s with code := s.ferr } ∧ exec .feos s = .next { s with code := s.ferr }

/-- R164: from a state with nothing latched, FERR becomes non-zero exactly on these events: FDETECT ending in EVARINT,
EFRAME or ETOOBIG; RXPUSH on a full window; FEOS ending in EEOS. Each latches its own code. The codec commands, FHDR and
the illegal command leave FERR as it is, in every state. -/
def Obligations.ExactlyFiveEventsLatch : Prop :=
  (∀ (i : Instr) (s t : State), s.ferr = .ok → exec i s = .next t →
    (t.ferr ≠ .ok ↔
      (i = .fdetect ∧ (t.code = .evarint ∨ t.code = .eframe ∨ t.code = .etoobig)) ∨
      (∃ wdata, i = .rxpush wdata ∧ posDist s.rd s.wr = Config.rxcap) ∨
      (i = .feos ∧ t.code = .eeos)) ∧
    (i = .fdetect → t.code = .evarint ∨ t.code = .eframe ∨ t.code = .etoobig → t.ferr = t.code) ∧
    (∀ wdata, i = .rxpush wdata → posDist s.rd s.wr = Config.rxcap → t.ferr = .eovf) ∧
    (i = .feos → t.code = .eeos → t.ferr = .eeos)) ∧
  ∀ (i : Instr) (s t : State),
    i ∈ [.enc32, .enc64, .len32, .len64, .dec32r, .dec64r, .dec32w, .dec64w, .fhdr] ∨ (∃ w, i = .illegal w) →
    exec i s = .next t → t.ferr = s.ferr

/-- R26 to R29, R31, R32: each window register is written by the instructions its rule names and by no other: RD by
FRELEASE and SRESET; SCAN, FSTART and FLEN by FDETECT on success and SRESET; WR, and the storage, by RXPUSH, and WR by
SRESET; PTR by FDETECT, DEC32W and DEC64W on success, a write to PTR, and SRESET. -/
def Obligations.WindowRegistersHaveFewWriters : Prop :=
  ∀ (i : Instr) (s t : State), exec i s = .next t → i ≠ .sreset →
    (t.rd ≠ s.rd → i = .frelease) ∧
    ((t.scan ≠ s.scan ∨ t.fstart ≠ s.fstart ∨ t.flen ≠ s.flen) → i = .fdetect ∧ t.code = .ok) ∧
    ((t.wr ≠ s.wr ∨ t.win ≠ s.win) → ∃ wdata, i = .rxpush wdata) ∧
    (t.ptr ≠ s.ptr →
      ((i = .fdetect ∨ i = .dec32w ∨ i = .dec64w) ∧ t.code = .ok) ∨ ∃ wdata, i = .regwr (wordIndex 0x3C) wdata)

/-- R73, R20, R21, R22, R23: the operand and result registers have only the writers R73 and R152 name: CTRL, IN0 to IN2
and INLEN only register writes (SRESET apart); OUT0 to OUT2 only ENC32, ENC64 and FHDR; VAL only the decodes and register
writes; CNT only commands that end in OK. -/
def Obligations.OperandRegistersHaveFewWriters : Prop :=
  ∀ (i : Instr) (s t : State), exec i s = .next t → i ≠ .sreset →
    ((t.ctrl ≠ s.ctrl ∨ t.in0 ≠ s.in0 ∨ t.in1 ≠ s.in1 ∨ t.in2 ≠ s.in2 ∨ t.inlen ≠ s.inlen) →
      ∃ a wdata, i = .regwr a wdata) ∧
    ((t.out0 ≠ s.out0 ∨ t.out1 ≠ s.out1 ∨ t.out2 ≠ s.out2) → i = .enc32 ∨ i = .enc64 ∨ i = .fhdr) ∧
    ((t.valLo ≠ s.valLo ∨ t.valHi ≠ s.valHi) →
      i = .dec32r ∨ i = .dec64r ∨ i = .dec32w ∨ i = .dec64w ∨ ∃ a wdata, i = .regwr a wdata) ∧
    (t.cnt ≠ s.cnt → isCommand i = true ∧ t.code = .ok ∧ i ≠ .frelease ∧ i ≠ .feos)
end

