-- ==== Sys2Proof/Laws/Codec.lean ====
section
/-! SUPPORT. Laws/Codec.lean: what VarLen, VarEncode and VarDecode can answer. -/

namespace Sys2Proof.Machine

open Sys2Proof

theorem lenFrom_bounds (v n more : Nat) : n ≤ lenFrom v n more ∧ lenFrom v n more ≤ n + more := by
  induction more generalizing n with
  | zero => simp [lenFrom]
  | succ more ih =>
    simp only [lenFrom]
    split
    · omega
    · have := ih (n + 1)
      omega

/-- `1 <= VarLen_W(v) <= G_W` (R100). -/
theorem varLen_bounds (w : Width) (v : Nat) : 1 ≤ varLen w v ∧ varLen w v ≤ maxGroups w := by
  have h := lenFrom_bounds v 1 (maxGroups w - 1)
  have hg : 1 ≤ maxGroups w := by cases w <;> decide
  unfold varLen
  omega

theorem lenFrom_minimal (v n more m : Nat) (hn : n ≤ m) (hm : m < lenFrom v n more) : 2 ^ (7 * m) ≤ v := by
  induction more generalizing n with
  | zero => simp [lenFrom] at hm; omega
  | succ more ih =>
    simp only [lenFrom] at hm
    split at hm
    · omega
    · rename_i hv
      by_cases he : n = m
      · subst he; omega
      · exact ih (n + 1) (by omega) hm

theorem lenFrom_fits (v n more : Nat) (hv : v < 2 ^ (7 * (n + more))) : v < 2 ^ (7 * lenFrom v n more) := by
  induction more generalizing n with
  | zero => simpa [lenFrom] using hv
  | succ more ih =>
    simp only [lenFrom]
    split
    · assumption
    · exact ih (n + 1) (by rwa [show n + 1 + more = n + (more + 1) by omega])

/-- `VarLen_W(v)` groups hold `v` (R100). -/
theorem varLen_fits (w : Width) (v : Nat) (hv : v < 2 ^ widthBits w) : v < 2 ^ (7 * varLen w v) := by
  apply lenFrom_fits
  refine lt_of_lt_of_le hv (Nat.pow_le_pow_right (by omega) ?_)
  cases w <;> decide

/-- No fewer groups hold `v` (R100). -/
theorem varLen_minimal (w : Width) (v m : Nat) (h1 : 1 ≤ m) (hm : m < varLen w v) : 2 ^ (7 * m) ≤ v :=
  lenFrom_minimal v 1 _ m h1 hm

@[simp] theorem varEncode_length (w : Width) (v : Nat) : (varEncode w v).length = varLen w v := by
  simp [varEncode]

/-- Byte `j` of an encoding. -/
theorem varEncode_getD (w : Width) (v j : Nat) :
    (varEncode w v).getD j 0 = if j < varLen w v then encodedByte v (varLen w v) j else 0 := by
  unfold varEncode
  split <;> rename_i h <;> simp [List.getD, h]

/-- What the loop of R102 can end with, from byte `i` on: every byte it passed carries a continuation bit. -/
theorem gather_done (src : Nat → Byte) (avail left i acc r k : Nat)
    (h : gather src avail left i acc = .done r k) :
    i < k ∧ k ≤ i + left ∧ (i ≤ avail → k ≤ avail) ∧ (src (k - 1)).toNat < 128 ∧
      ∀ j, i ≤ j → j + 1 < k → 128 ≤ (src j).toNat := by
  induction left generalizing i acc with
  | zero => simp [gather] at h
  | succ left ih =>
    simp only [gather] at h
    split at h
    · simp at h
    · split at h
      · rename_i hne hb
        injection h with h1 h2
        subst h2
        refine ⟨by omega, by omega, by omega, by simpa using hb, ?_⟩
        intro j h1 h2
        omega
      · rename_i hne hb
        obtain ⟨h1, h2, h3, h4, h5⟩ := ih _ _ h
        refine ⟨by omega, by omega, by omega, h4, ?_⟩
        intro j hj1 hj2
        by_cases hij : j = i
        · subst hij; omega
        · exact h5 j (by omega) hj2

/-- Running out: fewer bytes than the groups allowed, each with a continuation bit (R102(c)). -/
theorem gather_ranOut (src : Nat → Byte) (avail left i acc : Nat) (hi : i ≤ avail)
    (h : gather src avail left i acc = .ranOut) :
    avail < i + left ∧ ∀ j, i ≤ j → j < avail → 128 ≤ (src j).toNat := by
  induction left generalizing i acc with
  | zero => simp [gather] at h
  | succ left ih =>
    simp only [gather] at h
    split at h
    · exact ⟨by omega, fun j h1 h2 => by omega⟩
    · split at h
      · simp at h
      · obtain ⟨h1, h2⟩ := ih (i + 1) _ (by omega) h
        refine ⟨by omega, fun j hj1 hj2 => ?_⟩
        by_cases hij : j = i
        · subst hij; omega
        · exact h2 j (by omega) hj2

/-- Too long: as many continuation bits as groups allowed (R102(b)). -/
theorem gather_tooLong (src : Nat → Byte) (avail left i acc : Nat) (hi : i ≤ avail)
    (h : gather src avail left i acc = .tooLong) :
    i + left ≤ avail ∧ ∀ j, i ≤ j → j < i + left → 128 ≤ (src j).toNat := by
  induction left generalizing i acc with
  | zero => exact ⟨by omega, fun j h1 h2 => by omega⟩
  | succ left ih =>
    simp only [gather] at h
    split at h
    · simp at h
    · split at h
      · simp at h
      · obtain ⟨h1, h2⟩ := ih (i + 1) _ (by omega) h
        refine ⟨by omega, fun j hj1 hj2 => ?_⟩
        by_cases hij : j = i
        · subst hij; omega
        · exact h2 j (by omega) (by omega)

/-- The gathered value: what was there before, and group `j` times `2^(7*j)` for every byte read (R70, R102). -/
theorem gather_value (src : Nat → Byte) (avail left i acc r k : Nat)
    (h : gather src avail left i acc = .done r k) :
    r = acc + ((List.range' i (k - i)).map fun j => (src j).toNat % 128 * 2 ^ (7 * j)).sum := by
  induction left generalizing i acc with
  | zero => simp [gather] at h
  | succ left ih =>
    simp only [gather] at h
    split at h
    · simp at h
    · split at h
      · injection h with h1 h2
        subst h1 h2
        simp
      · have hk := (gather_done _ _ _ _ _ _ _ h).1
        have := ih _ _ h
        rw [this, show k - i = (k - (i + 1)) + 1 by omega, List.range'_succ]
        simp [Nat.add_assoc]

/-- The loop looks at no byte it does not read: sources that agree on the first `avail` bytes end it alike, and more
bytes change nothing unless it ran out (R102(a), R114(c)). -/
theorem gather_prefix (src src' : Nat → Byte) (a a' left i acc : Nat) (hi : i ≤ a) (ha : a ≤ a')
    (hs : ∀ j, j < a → src' j = src j) (h : gather src a left i acc ≠ .ranOut) :
    gather src' a' left i acc = gather src a left i acc := by
  induction left generalizing i acc with
  | zero => rfl
  | succ left ih =>
    simp only [gather] at h ⊢
    by_cases hia : i = a
    · simp [hia] at h
    · rw [if_neg hia] at h ⊢
      rw [if_neg (by omega), hs i (by omega)]
      by_cases hb : (src i).toNat < 128
      · simp [hb]
      · simp only [hb, if_false] at h ⊢
        exact ih (i + 1) _ (by omega) h

/-- The loop reads no byte past the available ones, and none past the groups allowed: sources that agree on those end it
alike (R66, R102). -/
theorem gather_congr (src src' : Nat → Byte) (avail left i acc : Nat) (hi : i ≤ avail)
    (hs : ∀ j, j < avail → j < i + left → src' j = src j) :
    gather src' avail left i acc = gather src avail left i acc := by
  induction left generalizing i acc with
  | zero => rfl
  | succ left ih =>
    simp only [gather]
    by_cases hia : i = avail
    · rw [if_pos hia, if_pos hia]
    · rw [if_neg hia, if_neg hia, hs i (by omega) (by omega),
        ih (i + 1) _ (by omega) (fun j h1 h2 => hs j h1 (by omega))]

/-- A decode depends on no byte but the first `G_W` of the available ones (R66, R102). -/
theorem varDecode_congr (w : Width) (mr ht : Bool) (src src' : Nat → Byte) (avail : Nat)
    (hs : ∀ j, j < avail → j < maxGroups w → src' j = src j) :
    varDecode w mr ht src' avail = varDecode w mr ht src avail := by
  unfold varDecode
  rw [gather_congr src src' avail _ 0 0 (Nat.zero_le _) (by simpa using hs)]

/-- A successful decode read between 1 and `G_W` bytes, at most `avail` of them, and answers a value of the width (R102,
R66). -/
theorem varDecode_ok (w : Width) (mr ht : Bool) (src : Nat → Byte) (avail v k : Nat)
    (h : varDecode w mr ht src avail = .ok v k) :
    1 ≤ k ∧ k ≤ maxGroups w ∧ k ≤ avail ∧ v < 2 ^ widthBits w := by
  unfold varDecode at h
  split at h
  · simp at h
  · simp at h
  · rename_i acc k' hg
    obtain ⟨h1, h2, h3, -, -⟩ := gather_done _ _ _ _ _ _ _ hg
    split at h
    · simp at h
    · dsimp only at h
      split at h
      · simp at h
      · injection h with hv hk
        subst hv hk
        exact ⟨by omega, by omega, h3 (Nat.zero_le _), Nat.mod_lt _ (by positivity)⟩

end Sys2Proof.Machine
end

