-- ==== Sys2Proof/Laws/Decode.lean ====
section
/-! SUPPORT. Laws/Decode.lean: what the command decoder answers, said once over the number a word is. -/

namespace Sys2Proof

theorem extract_high_eq_zero (w : Word) : w.extractLsb' 8 24 = 0 ↔ w.toNat < 256 := by
  have hw := w.isLt
  rw [← BitVec.toNat_inj]
  simp only [BitVec.extractLsb'_toNat, Nat.shiftRight_eq_div_pow, BitVec.ofNat_eq_ofNat, BitVec.toNat_ofNat]
  omega

theorem extract_low_toNat (w : Word) : (w.extractLsb' 0 8).toNat = w.toNat % 256 := by
  simp [BitVec.extractLsb'_toNat]

/-- A command word by its number (R72, R74). -/
theorem decodeCommand_eq (w : Word) : decodeCommand w =
    match w.toNat with
    | 0x01 => .enc32
    | 0x02 => .enc64
    | 0x03 => .len32
    | 0x04 => .len64
    | 0x05 => .dec32r
    | 0x06 => .dec64r
    | 0x07 => .dec32w
    | 0x08 => .dec64w
    | 0x10 => .fdetect
    | 0x11 => .frelease
    | 0x12 => .fhdr
    | 0x13 => .feos
    | 0x1F => .sreset
    | _ => .illegal w := by
  unfold decodeCommand
  by_cases h : w.toNat < 256
  · have hl : (w.extractLsb' 0 8).toNat = w.toNat := by rw [extract_low_toNat, Nat.mod_eq_of_lt h]
    simp only [if_pos ((extract_high_eq_zero w).2 h), hl]
    first | done | rfl | (split <;> rfl)
  · rw [if_neg (fun hc => h ((extract_high_eq_zero w).1 hc))]
    split <;> first | omega | rfl

/-- A word is legal exactly if its number is an opcode (R72). -/
theorem legalCommand_iff (w : Word) : legalCommand w = true ↔
    w.toNat ∈ [1, 2, 3, 4, 5, 6, 7, 8, 16, 17, 18, 19, 31] := by
  unfold legalCommand
  rw [Bool.and_eq_true, beq_iff_eq, extract_high_eq_zero]
  have hl := extract_low_toNat w
  simp only [opcodes, List.contains_iff_mem, List.mem_cons, ← BitVec.toNat_inj, hl, BitVec.ofNat_eq_ofNat,
    BitVec.toNat_ofNat, List.not_mem_nil, or_false]
  omega

/-- Exactly the words that are not legal decode to ILLEGAL (R74). -/
theorem decodeCommand_illegal_iff (w : Word) : decodeCommand w = .illegal w ↔ legalCommand w = false := by
  rw [← Bool.not_eq_true, legalCommand_iff, decodeCommand_eq]
  split <;> simp_all

end Sys2Proof
end

