-- ==== Sys2Proof/Laws/Memory.lean ====
section
/-! SUPPORT. Laws/Memory.lean: the receive-window storage: a byte written is the byte read there, every other byte is
untouched, and the canonical form is kept. -/

namespace Sys2Proof.Machine

open Sys2Proof

theorem readAt_of_above (m : Memory) (n : Nat) (h : Memory.above n m = true) :
    Memory.readAt m n = unwritten := by
  induction m with
  | nil => rfl
  | cons c m ih =>
    obtain ⟨a, b⟩ := c
    simp only [Memory.above, Bool.and_eq_true, decide_eq_true_eq] at h
    simp only [Memory.readAt]
    rw [if_neg (by omega)]
    exact ih h.2

theorem above_mono (m : Memory) (n k : Nat) (hnk : n ≤ k) (h : Memory.above k m = true) :
    Memory.above n m = true := by
  induction m with
  | nil => rfl
  | cons c m ih =>
    obtain ⟨a, b⟩ := c
    simp only [Memory.above, Bool.and_eq_true, decide_eq_true_eq] at h ⊢
    exact ⟨by omega, ih h.2⟩

theorem above_writeAt (m : Memory) (n k : Nat) (b : Byte) (hk : k < n)
    (h : Memory.above k m = true) :
    Memory.above k (Memory.writeAt m n b) = true := by
  induction m with
  | nil =>
    simp only [Memory.writeAt]
    split <;> simp_all [Memory.above]
  | cons c m ih =>
    obtain ⟨a, c⟩ := c
    simp only [Memory.above, Bool.and_eq_true, decide_eq_true_eq] at h
    have ih' := ih h.2
    simp only [Memory.writeAt]
    split
    · split <;> simp_all [Memory.above]
    · split
      · split <;> simp_all [Memory.above]
      · simp_all [Memory.above]

/-- Storing a byte keeps the canonical form. -/
theorem wf_writeAt (m : Memory) (n : Nat) (b : Byte) (hn : n < 2 ^ 32) (h : Memory.wf m = true) :
    Memory.wf (Memory.writeAt m n b) = true := by
  induction m with
  | nil =>
    simp only [Memory.writeAt]
    split <;> simp_all [Memory.wf, Memory.above]
  | cons c m ih =>
    obtain ⟨a, c⟩ := c
    simp only [Memory.wf, Bool.and_eq_true, decide_eq_true_eq, bne_iff_ne, ne_eq] at h
    obtain ⟨⟨⟨ha, hc⟩, hall⟩, hm⟩ := h
    simp only [Memory.writeAt]
    split
    · rename_i hlt
      have hall' := above_mono m n a (by omega) hall
      split <;> simp_all [Memory.wf, Memory.above]
    · split
      · rename_i heq
        subst heq
        split <;> simp_all [Memory.wf]
      · rename_i h1 h2
        have hall' := above_writeAt m n a b (by omega) hall
        simp_all [Memory.wf]

/-- A byte read where it was written is that byte. -/
theorem readAt_writeAt_same (m : Memory) (n : Nat) (b : Byte) (h : Memory.wf m = true) :
    Memory.readAt (Memory.writeAt m n b) n = b := by
  induction m with
  | nil =>
    simp only [Memory.writeAt]
    split <;> simp_all [Memory.readAt]
  | cons c m ih =>
    obtain ⟨a, c⟩ := c
    simp only [Memory.wf, Bool.and_eq_true, decide_eq_true_eq, bne_iff_ne, ne_eq] at h
    obtain ⟨⟨⟨ha, hc⟩, hall⟩, hm⟩ := h
    simp only [Memory.writeAt]
    split
    · rename_i hlt
      have hg := readAt_of_above m n (above_mono m n a (by omega) hall)
      split
      · rename_i hb
        simp only [Memory.readAt]
        rw [if_neg (by omega), hg, hb]
      · simp [Memory.readAt]
    · split
      · rename_i heq
        subst heq
        have hg := readAt_of_above m n hall
        split <;> simp_all [Memory.readAt]
      · rename_i h1 h2
        simp only [Memory.readAt]
        rw [if_neg (by omega)]
        exact ih hm

/-- Storing a byte leaves every other byte alone. -/
theorem readAt_writeAt_other (m : Memory) (n k : Nat) (b : Byte) (hk : k ≠ n) (h : Memory.wf m = true) :
    Memory.readAt (Memory.writeAt m n b) k = Memory.readAt m k := by
  induction m with
  | nil =>
    simp only [Memory.writeAt]
    split <;> simp_all [Memory.readAt]
    omega
  | cons c m ih =>
    obtain ⟨a, c⟩ := c
    simp only [Memory.wf, Bool.and_eq_true, decide_eq_true_eq, bne_iff_ne, ne_eq] at h
    obtain ⟨⟨⟨ha, hc⟩, hall⟩, hm⟩ := h
    simp only [Memory.writeAt]
    split
    · split
      · rfl
      · simp only [Memory.readAt]
        rw [if_neg (by omega)]
    · split
      · rename_i heq
        subst heq
        split
        · simp only [Memory.readAt]
          by_cases hnk : n = k
          · omega
          · rw [if_neg hnk]
        · simp only [Memory.readAt]
          rw [if_neg (by omega), if_neg (by omega)]
      · simp only [Memory.readAt]
        split
        · rfl
        · exact ih hm

/-- WinRead after RXPUSH has stored a byte: the byte at the old WR, and at every other position what was there (R58,
R59). -/
theorem winRead_storeByte (b : Byte) (s : State) (p : Position) (h : Memory.wf s.win = true) :
    winRead (storeByte b s) p = if p = s.wr then b else winRead s p := by
  unfold winRead storeByte
  by_cases hp : p = s.wr
  · subst hp
    simp [readAt_writeAt_same _ _ _ h]
  · rw [if_neg hp]
    exact readAt_writeAt_other _ _ _ _ (fun he => hp (BitVec.eq_of_toNat_eq he)) h

/-- RXPUSH keeps the canonical form. -/
theorem storeByte_wf (b : Byte) (s : State) (h : Memory.wf s.win = true) :
    Memory.wf (storeByte b s).win = true :=
  wf_writeAt _ _ _ s.wr.isLt h

theorem reset_win_wf : Memory.wf State.reset.win = true := rfl

end Sys2Proof.Machine
end

