-- ==== Sys2Proof/Laws/State.lean ====
section
/-! SUPPORT. Laws/State.lean: what each named update leaves in each field: one lemma per field per update, so that no later proof unfolds a record update. -/

namespace Sys2Proof.Machine

open Sys2Proof

@[simp] theorem finish_code (c : Code) (s : State) : (finish c s).code = c := rfl
@[simp] theorem finish_ferr (c : Code) (s : State) : (finish c s).ferr = s.ferr := rfl
@[simp] theorem finish_ctrl (c : Code) (s : State) : (finish c s).ctrl = s.ctrl := rfl
@[simp] theorem finish_valLo (c : Code) (s : State) : (finish c s).valLo = s.valLo := rfl
@[simp] theorem finish_valHi (c : Code) (s : State) : (finish c s).valHi = s.valHi := rfl
@[simp] theorem finish_cnt (c : Code) (s : State) : (finish c s).cnt = s.cnt := rfl
@[simp] theorem finish_out0 (c : Code) (s : State) : (finish c s).out0 = s.out0 := rfl
@[simp] theorem finish_out1 (c : Code) (s : State) : (finish c s).out1 = s.out1 := rfl
@[simp] theorem finish_out2 (c : Code) (s : State) : (finish c s).out2 = s.out2 := rfl
@[simp] theorem finish_in0 (c : Code) (s : State) : (finish c s).in0 = s.in0 := rfl
@[simp] theorem finish_in1 (c : Code) (s : State) : (finish c s).in1 = s.in1 := rfl
@[simp] theorem finish_in2 (c : Code) (s : State) : (finish c s).in2 = s.in2 := rfl
@[simp] theorem finish_inlen (c : Code) (s : State) : (finish c s).inlen = s.inlen := rfl
@[simp] theorem finish_ptr (c : Code) (s : State) : (finish c s).ptr = s.ptr := rfl
@[simp] theorem finish_rd (c : Code) (s : State) : (finish c s).rd = s.rd := rfl
@[simp] theorem finish_scan (c : Code) (s : State) : (finish c s).scan = s.scan := rfl
@[simp] theorem finish_wr (c : Code) (s : State) : (finish c s).wr = s.wr := rfl
@[simp] theorem finish_fstart (c : Code) (s : State) : (finish c s).fstart = s.fstart := rfl
@[simp] theorem finish_flen (c : Code) (s : State) : (finish c s).flen = s.flen := rfl
@[simp] theorem finish_win (c : Code) (s : State) : (finish c s).win = s.win := rfl
@[simp] theorem finish_pending (c : Code) (s : State) : (finish c s).pending = s.pending := rfl
@[simp] theorem finish_resp (c : Code) (s : State) : (finish c s).resp = s.resp := rfl

@[simp] theorem setFerr_code (c : Code) (s : State) : (setFerr c s).code = s.code := rfl
@[simp] theorem setFerr_ferr (c : Code) (s : State) : (setFerr c s).ferr = c := rfl
@[simp] theorem setFerr_ctrl (c : Code) (s : State) : (setFerr c s).ctrl = s.ctrl := rfl
@[simp] theorem setFerr_valLo (c : Code) (s : State) : (setFerr c s).valLo = s.valLo := rfl
@[simp] theorem setFerr_valHi (c : Code) (s : State) : (setFerr c s).valHi = s.valHi := rfl
@[simp] theorem setFerr_cnt (c : Code) (s : State) : (setFerr c s).cnt = s.cnt := rfl
@[simp] theorem setFerr_out0 (c : Code) (s : State) : (setFerr c s).out0 = s.out0 := rfl
@[simp] theorem setFerr_out1 (c : Code) (s : State) : (setFerr c s).out1 = s.out1 := rfl
@[simp] theorem setFerr_out2 (c : Code) (s : State) : (setFerr c s).out2 = s.out2 := rfl
@[simp] theorem setFerr_in0 (c : Code) (s : State) : (setFerr c s).in0 = s.in0 := rfl
@[simp] theorem setFerr_in1 (c : Code) (s : State) : (setFerr c s).in1 = s.in1 := rfl
@[simp] theorem setFerr_in2 (c : Code) (s : State) : (setFerr c s).in2 = s.in2 := rfl
@[simp] theorem setFerr_inlen (c : Code) (s : State) : (setFerr c s).inlen = s.inlen := rfl
@[simp] theorem setFerr_ptr (c : Code) (s : State) : (setFerr c s).ptr = s.ptr := rfl
@[simp] theorem setFerr_rd (c : Code) (s : State) : (setFerr c s).rd = s.rd := rfl
@[simp] theorem setFerr_scan (c : Code) (s : State) : (setFerr c s).scan = s.scan := rfl
@[simp] theorem setFerr_wr (c : Code) (s : State) : (setFerr c s).wr = s.wr := rfl
@[simp] theorem setFerr_fstart (c : Code) (s : State) : (setFerr c s).fstart = s.fstart := rfl
@[simp] theorem setFerr_flen (c : Code) (s : State) : (setFerr c s).flen = s.flen := rfl
@[simp] theorem setFerr_win (c : Code) (s : State) : (setFerr c s).win = s.win := rfl
@[simp] theorem setFerr_pending (c : Code) (s : State) : (setFerr c s).pending = s.pending := rfl
@[simp] theorem setFerr_resp (c : Code) (s : State) : (setFerr c s).resp = s.resp := rfl

@[simp] theorem latch_code (c : Code) (s : State) : (latch c s).code = s.code := by
  unfold latch; split <;> rfl
@[simp] theorem latch_ferr (c : Code) (s : State) : (latch c s).ferr = if s.ferr = .ok then c else s.ferr := by
  unfold latch; split <;> simp_all [setFerr]
@[simp] theorem latch_ctrl (c : Code) (s : State) : (latch c s).ctrl = s.ctrl := by
  unfold latch; split <;> rfl
@[simp] theorem latch_valLo (c : Code) (s : State) : (latch c s).valLo = s.valLo := by
  unfold latch; split <;> rfl
@[simp] theorem latch_valHi (c : Code) (s : State) : (latch c s).valHi = s.valHi := by
  unfold latch; split <;> rfl
@[simp] theorem latch_cnt (c : Code) (s : State) : (latch c s).cnt = s.cnt := by
  unfold latch; split <;> rfl
@[simp] theorem latch_out0 (c : Code) (s : State) : (latch c s).out0 = s.out0 := by
  unfold latch; split <;> rfl
@[simp] theorem latch_out1 (c : Code) (s : State) : (latch c s).out1 = s.out1 := by
  unfold latch; split <;> rfl
@[simp] theorem latch_out2 (c : Code) (s : State) : (latch c s).out2 = s.out2 := by
  unfold latch; split <;> rfl
@[simp] theorem latch_in0 (c : Code) (s : State) : (latch c s).in0 = s.in0 := by
  unfold latch; split <;> rfl
@[simp] theorem latch_in1 (c : Code) (s : State) : (latch c s).in1 = s.in1 := by
  unfold latch; split <;> rfl
@[simp] theorem latch_in2 (c : Code) (s : State) : (latch c s).in2 = s.in2 := by
  unfold latch; split <;> rfl
@[simp] theorem latch_inlen (c : Code) (s : State) : (latch c s).inlen = s.inlen := by
  unfold latch; split <;> rfl
@[simp] theorem latch_ptr (c : Code) (s : State) : (latch c s).ptr = s.ptr := by
  unfold latch; split <;> rfl
@[simp] theorem latch_rd (c : Code) (s : State) : (latch c s).rd = s.rd := by
  unfold latch; split <;> rfl
@[simp] theorem latch_scan (c : Code) (s : State) : (latch c s).scan = s.scan := by
  unfold latch; split <;> rfl
@[simp] theorem latch_wr (c : Code) (s : State) : (latch c s).wr = s.wr := by
  unfold latch; split <;> rfl
@[simp] theorem latch_fstart (c : Code) (s : State) : (latch c s).fstart = s.fstart := by
  unfold latch; split <;> rfl
@[simp] theorem latch_flen (c : Code) (s : State) : (latch c s).flen = s.flen := by
  unfold latch; split <;> rfl
@[simp] theorem latch_win (c : Code) (s : State) : (latch c s).win = s.win := by
  unfold latch; split <;> rfl
@[simp] theorem latch_pending (c : Code) (s : State) : (latch c s).pending = s.pending := by
  unfold latch; split <;> rfl
@[simp] theorem latch_resp (c : Code) (s : State) : (latch c s).resp = s.resp := by
  unfold latch; split <;> rfl

@[simp] theorem setCnt_code (n : Nat) (s : State) : (setCnt n s).code = s.code := rfl
@[simp] theorem setCnt_ferr (n : Nat) (s : State) : (setCnt n s).ferr = s.ferr := rfl
@[simp] theorem setCnt_ctrl (n : Nat) (s : State) : (setCnt n s).ctrl = s.ctrl := rfl
@[simp] theorem setCnt_valLo (n : Nat) (s : State) : (setCnt n s).valLo = s.valLo := rfl
@[simp] theorem setCnt_valHi (n : Nat) (s : State) : (setCnt n s).valHi = s.valHi := rfl
@[simp] theorem setCnt_cnt (n : Nat) (s : State) : (setCnt n s).cnt = BitVec.ofNat 32 n := rfl
@[simp] theorem setCnt_out0 (n : Nat) (s : State) : (setCnt n s).out0 = s.out0 := rfl
@[simp] theorem setCnt_out1 (n : Nat) (s : State) : (setCnt n s).out1 = s.out1 := rfl
@[simp] theorem setCnt_out2 (n : Nat) (s : State) : (setCnt n s).out2 = s.out2 := rfl
@[simp] theorem setCnt_in0 (n : Nat) (s : State) : (setCnt n s).in0 = s.in0 := rfl
@[simp] theorem setCnt_in1 (n : Nat) (s : State) : (setCnt n s).in1 = s.in1 := rfl
@[simp] theorem setCnt_in2 (n : Nat) (s : State) : (setCnt n s).in2 = s.in2 := rfl
@[simp] theorem setCnt_inlen (n : Nat) (s : State) : (setCnt n s).inlen = s.inlen := rfl
@[simp] theorem setCnt_ptr (n : Nat) (s : State) : (setCnt n s).ptr = s.ptr := rfl
@[simp] theorem setCnt_rd (n : Nat) (s : State) : (setCnt n s).rd = s.rd := rfl
@[simp] theorem setCnt_scan (n : Nat) (s : State) : (setCnt n s).scan = s.scan := rfl
@[simp] theorem setCnt_wr (n : Nat) (s : State) : (setCnt n s).wr = s.wr := rfl
@[simp] theorem setCnt_fstart (n : Nat) (s : State) : (setCnt n s).fstart = s.fstart := rfl
@[simp] theorem setCnt_flen (n : Nat) (s : State) : (setCnt n s).flen = s.flen := rfl
@[simp] theorem setCnt_win (n : Nat) (s : State) : (setCnt n s).win = s.win := rfl
@[simp] theorem setCnt_pending (n : Nat) (s : State) : (setCnt n s).pending = s.pending := rfl
@[simp] theorem setCnt_resp (n : Nat) (s : State) : (setCnt n s).resp = s.resp := rfl

@[simp] theorem setVal_code (hi lo : Word) (s : State) : (setVal hi lo s).code = s.code := rfl
@[simp] theorem setVal_ferr (hi lo : Word) (s : State) : (setVal hi lo s).ferr = s.ferr := rfl
@[simp] theorem setVal_ctrl (hi lo : Word) (s : State) : (setVal hi lo s).ctrl = s.ctrl := rfl
@[simp] theorem setVal_valLo (hi lo : Word) (s : State) : (setVal hi lo s).valLo = lo := rfl
@[simp] theorem setVal_valHi (hi lo : Word) (s : State) : (setVal hi lo s).valHi = hi := rfl
@[simp] theorem setVal_cnt (hi lo : Word) (s : State) : (setVal hi lo s).cnt = s.cnt := rfl
@[simp] theorem setVal_out0 (hi lo : Word) (s : State) : (setVal hi lo s).out0 = s.out0 := rfl
@[simp] theorem setVal_out1 (hi lo : Word) (s : State) : (setVal hi lo s).out1 = s.out1 := rfl
@[simp] theorem setVal_out2 (hi lo : Word) (s : State) : (setVal hi lo s).out2 = s.out2 := rfl
@[simp] theorem setVal_in0 (hi lo : Word) (s : State) : (setVal hi lo s).in0 = s.in0 := rfl
@[simp] theorem setVal_in1 (hi lo : Word) (s : State) : (setVal hi lo s).in1 = s.in1 := rfl
@[simp] theorem setVal_in2 (hi lo : Word) (s : State) : (setVal hi lo s).in2 = s.in2 := rfl
@[simp] theorem setVal_inlen (hi lo : Word) (s : State) : (setVal hi lo s).inlen = s.inlen := rfl
@[simp] theorem setVal_ptr (hi lo : Word) (s : State) : (setVal hi lo s).ptr = s.ptr := rfl
@[simp] theorem setVal_rd (hi lo : Word) (s : State) : (setVal hi lo s).rd = s.rd := rfl
@[simp] theorem setVal_scan (hi lo : Word) (s : State) : (setVal hi lo s).scan = s.scan := rfl
@[simp] theorem setVal_wr (hi lo : Word) (s : State) : (setVal hi lo s).wr = s.wr := rfl
@[simp] theorem setVal_fstart (hi lo : Word) (s : State) : (setVal hi lo s).fstart = s.fstart := rfl
@[simp] theorem setVal_flen (hi lo : Word) (s : State) : (setVal hi lo s).flen = s.flen := rfl
@[simp] theorem setVal_win (hi lo : Word) (s : State) : (setVal hi lo s).win = s.win := rfl
@[simp] theorem setVal_pending (hi lo : Word) (s : State) : (setVal hi lo s).pending = s.pending := rfl
@[simp] theorem setVal_resp (hi lo : Word) (s : State) : (setVal hi lo s).resp = s.resp := rfl

@[simp] theorem setPtr_code (p : Position) (s : State) : (setPtr p s).code = s.code := rfl
@[simp] theorem setPtr_ferr (p : Position) (s : State) : (setPtr p s).ferr = s.ferr := rfl
@[simp] theorem setPtr_ctrl (p : Position) (s : State) : (setPtr p s).ctrl = s.ctrl := rfl
@[simp] theorem setPtr_valLo (p : Position) (s : State) : (setPtr p s).valLo = s.valLo := rfl
@[simp] theorem setPtr_valHi (p : Position) (s : State) : (setPtr p s).valHi = s.valHi := rfl
@[simp] theorem setPtr_cnt (p : Position) (s : State) : (setPtr p s).cnt = s.cnt := rfl
@[simp] theorem setPtr_out0 (p : Position) (s : State) : (setPtr p s).out0 = s.out0 := rfl
@[simp] theorem setPtr_out1 (p : Position) (s : State) : (setPtr p s).out1 = s.out1 := rfl
@[simp] theorem setPtr_out2 (p : Position) (s : State) : (setPtr p s).out2 = s.out2 := rfl
@[simp] theorem setPtr_in0 (p : Position) (s : State) : (setPtr p s).in0 = s.in0 := rfl
@[simp] theorem setPtr_in1 (p : Position) (s : State) : (setPtr p s).in1 = s.in1 := rfl
@[simp] theorem setPtr_in2 (p : Position) (s : State) : (setPtr p s).in2 = s.in2 := rfl
@[simp] theorem setPtr_inlen (p : Position) (s : State) : (setPtr p s).inlen = s.inlen := rfl
@[simp] theorem setPtr_ptr (p : Position) (s : State) : (setPtr p s).ptr = p := rfl
@[simp] theorem setPtr_rd (p : Position) (s : State) : (setPtr p s).rd = s.rd := rfl
@[simp] theorem setPtr_scan (p : Position) (s : State) : (setPtr p s).scan = s.scan := rfl
@[simp] theorem setPtr_wr (p : Position) (s : State) : (setPtr p s).wr = s.wr := rfl
@[simp] theorem setPtr_fstart (p : Position) (s : State) : (setPtr p s).fstart = s.fstart := rfl
@[simp] theorem setPtr_flen (p : Position) (s : State) : (setPtr p s).flen = s.flen := rfl
@[simp] theorem setPtr_win (p : Position) (s : State) : (setPtr p s).win = s.win := rfl
@[simp] theorem setPtr_pending (p : Position) (s : State) : (setPtr p s).pending = s.pending := rfl
@[simp] theorem setPtr_resp (p : Position) (s : State) : (setPtr p s).resp = s.resp := rfl

@[simp] theorem releaseScanned_code (s : State) : (releaseScanned s).code = s.code := rfl
@[simp] theorem releaseScanned_ferr (s : State) : (releaseScanned s).ferr = s.ferr := rfl
@[simp] theorem releaseScanned_ctrl (s : State) : (releaseScanned s).ctrl = s.ctrl := rfl
@[simp] theorem releaseScanned_valLo (s : State) : (releaseScanned s).valLo = s.valLo := rfl
@[simp] theorem releaseScanned_valHi (s : State) : (releaseScanned s).valHi = s.valHi := rfl
@[simp] theorem releaseScanned_cnt (s : State) : (releaseScanned s).cnt = s.cnt := rfl
@[simp] theorem releaseScanned_out0 (s : State) : (releaseScanned s).out0 = s.out0 := rfl
@[simp] theorem releaseScanned_out1 (s : State) : (releaseScanned s).out1 = s.out1 := rfl
@[simp] theorem releaseScanned_out2 (s : State) : (releaseScanned s).out2 = s.out2 := rfl
@[simp] theorem releaseScanned_in0 (s : State) : (releaseScanned s).in0 = s.in0 := rfl
@[simp] theorem releaseScanned_in1 (s : State) : (releaseScanned s).in1 = s.in1 := rfl
@[simp] theorem releaseScanned_in2 (s : State) : (releaseScanned s).in2 = s.in2 := rfl
@[simp] theorem releaseScanned_inlen (s : State) : (releaseScanned s).inlen = s.inlen := rfl
@[simp] theorem releaseScanned_ptr (s : State) : (releaseScanned s).ptr = s.ptr := rfl
@[simp] theorem releaseScanned_rd (s : State) : (releaseScanned s).rd = s.scan := rfl
@[simp] theorem releaseScanned_scan (s : State) : (releaseScanned s).scan = s.scan := rfl
@[simp] theorem releaseScanned_wr (s : State) : (releaseScanned s).wr = s.wr := rfl
@[simp] theorem releaseScanned_fstart (s : State) : (releaseScanned s).fstart = s.fstart := rfl
@[simp] theorem releaseScanned_flen (s : State) : (releaseScanned s).flen = s.flen := rfl
@[simp] theorem releaseScanned_win (s : State) : (releaseScanned s).win = s.win := rfl
@[simp] theorem releaseScanned_pending (s : State) : (releaseScanned s).pending = s.pending := rfl
@[simp] theorem releaseScanned_resp (s : State) : (releaseScanned s).resp = s.resp := rfl

@[simp] theorem foundFrame_code (k len : Nat) (s : State) : (foundFrame k len s).code = s.code := rfl
@[simp] theorem foundFrame_ferr (k len : Nat) (s : State) : (foundFrame k len s).ferr = s.ferr := rfl
@[simp] theorem foundFrame_ctrl (k len : Nat) (s : State) : (foundFrame k len s).ctrl = s.ctrl := rfl
@[simp] theorem foundFrame_valLo (k len : Nat) (s : State) : (foundFrame k len s).valLo = s.valLo := rfl
@[simp] theorem foundFrame_valHi (k len : Nat) (s : State) : (foundFrame k len s).valHi = s.valHi := rfl
@[simp] theorem foundFrame_cnt (k len : Nat) (s : State) : (foundFrame k len s).cnt = BitVec.ofNat 32 k := rfl
@[simp] theorem foundFrame_out0 (k len : Nat) (s : State) : (foundFrame k len s).out0 = s.out0 := rfl
@[simp] theorem foundFrame_out1 (k len : Nat) (s : State) : (foundFrame k len s).out1 = s.out1 := rfl
@[simp] theorem foundFrame_out2 (k len : Nat) (s : State) : (foundFrame k len s).out2 = s.out2 := rfl
@[simp] theorem foundFrame_in0 (k len : Nat) (s : State) : (foundFrame k len s).in0 = s.in0 := rfl
@[simp] theorem foundFrame_in1 (k len : Nat) (s : State) : (foundFrame k len s).in1 = s.in1 := rfl
@[simp] theorem foundFrame_in2 (k len : Nat) (s : State) : (foundFrame k len s).in2 = s.in2 := rfl
@[simp] theorem foundFrame_inlen (k len : Nat) (s : State) : (foundFrame k len s).inlen = s.inlen := rfl
@[simp] theorem foundFrame_ptr (k len : Nat) (s : State) : (foundFrame k len s).ptr = advance s.scan k := rfl
@[simp] theorem foundFrame_rd (k len : Nat) (s : State) : (foundFrame k len s).rd = s.rd := rfl
@[simp] theorem foundFrame_scan (k len : Nat) (s : State) : (foundFrame k len s).scan = advance s.scan (k + len) := rfl
@[simp] theorem foundFrame_wr (k len : Nat) (s : State) : (foundFrame k len s).wr = s.wr := rfl
@[simp] theorem foundFrame_fstart (k len : Nat) (s : State) : (foundFrame k len s).fstart = advance s.scan k := rfl
@[simp] theorem foundFrame_flen (k len : Nat) (s : State) : (foundFrame k len s).flen = BitVec.ofNat 32 len := rfl
@[simp] theorem foundFrame_win (k len : Nat) (s : State) : (foundFrame k len s).win = s.win := rfl
@[simp] theorem foundFrame_pending (k len : Nat) (s : State) : (foundFrame k len s).pending = s.pending := rfl
@[simp] theorem foundFrame_resp (k len : Nat) (s : State) : (foundFrame k len s).resp = s.resp := rfl

@[simp] theorem putOut_code (bs : List Byte) (s : State) : (putOut bs s).code = s.code := rfl
@[simp] theorem putOut_ferr (bs : List Byte) (s : State) : (putOut bs s).ferr = s.ferr := rfl
@[simp] theorem putOut_ctrl (bs : List Byte) (s : State) : (putOut bs s).ctrl = s.ctrl := rfl
@[simp] theorem putOut_valLo (bs : List Byte) (s : State) : (putOut bs s).valLo = s.valLo := rfl
@[simp] theorem putOut_valHi (bs : List Byte) (s : State) : (putOut bs s).valHi = s.valHi := rfl
@[simp] theorem putOut_cnt (bs : List Byte) (s : State) : (putOut bs s).cnt = s.cnt := rfl
@[simp] theorem putOut_out0 (bs : List Byte) (s : State) : (putOut bs s).out0 = laneWord (bs.getD 0 0) (bs.getD 1 0) (bs.getD 2 0) (bs.getD 3 0) := rfl
@[simp] theorem putOut_out1 (bs : List Byte) (s : State) : (putOut bs s).out1 = laneWord (bs.getD 4 0) (bs.getD 5 0) (bs.getD 6 0) (bs.getD 7 0) := rfl
@[simp] theorem putOut_out2 (bs : List Byte) (s : State) : (putOut bs s).out2 = laneWord (bs.getD 8 0) (bs.getD 9 0) 0 0 := rfl
@[simp] theorem putOut_in0 (bs : List Byte) (s : State) : (putOut bs s).in0 = s.in0 := rfl
@[simp] theorem putOut_in1 (bs : List Byte) (s : State) : (putOut bs s).in1 = s.in1 := rfl
@[simp] theorem putOut_in2 (bs : List Byte) (s : State) : (putOut bs s).in2 = s.in2 := rfl
@[simp] theorem putOut_inlen (bs : List Byte) (s : State) : (putOut bs s).inlen = s.inlen := rfl
@[simp] theorem putOut_ptr (bs : List Byte) (s : State) : (putOut bs s).ptr = s.ptr := rfl
@[simp] theorem putOut_rd (bs : List Byte) (s : State) : (putOut bs s).rd = s.rd := rfl
@[simp] theorem putOut_scan (bs : List Byte) (s : State) : (putOut bs s).scan = s.scan := rfl
@[simp] theorem putOut_wr (bs : List Byte) (s : State) : (putOut bs s).wr = s.wr := rfl
@[simp] theorem putOut_fstart (bs : List Byte) (s : State) : (putOut bs s).fstart = s.fstart := rfl
@[simp] theorem putOut_flen (bs : List Byte) (s : State) : (putOut bs s).flen = s.flen := rfl
@[simp] theorem putOut_win (bs : List Byte) (s : State) : (putOut bs s).win = s.win := rfl
@[simp] theorem putOut_pending (bs : List Byte) (s : State) : (putOut bs s).pending = s.pending := rfl
@[simp] theorem putOut_resp (bs : List Byte) (s : State) : (putOut bs s).resp = s.resp := rfl

@[simp] theorem storeByte_code (b : Byte) (s : State) : (storeByte b s).code = s.code := rfl
@[simp] theorem storeByte_ferr (b : Byte) (s : State) : (storeByte b s).ferr = s.ferr := rfl
@[simp] theorem storeByte_ctrl (b : Byte) (s : State) : (storeByte b s).ctrl = s.ctrl := rfl
@[simp] theorem storeByte_valLo (b : Byte) (s : State) : (storeByte b s).valLo = s.valLo := rfl
@[simp] theorem storeByte_valHi (b : Byte) (s : State) : (storeByte b s).valHi = s.valHi := rfl
@[simp] theorem storeByte_cnt (b : Byte) (s : State) : (storeByte b s).cnt = s.cnt := rfl
@[simp] theorem storeByte_out0 (b : Byte) (s : State) : (storeByte b s).out0 = s.out0 := rfl
@[simp] theorem storeByte_out1 (b : Byte) (s : State) : (storeByte b s).out1 = s.out1 := rfl
@[simp] theorem storeByte_out2 (b : Byte) (s : State) : (storeByte b s).out2 = s.out2 := rfl
@[simp] theorem storeByte_in0 (b : Byte) (s : State) : (storeByte b s).in0 = s.in0 := rfl
@[simp] theorem storeByte_in1 (b : Byte) (s : State) : (storeByte b s).in1 = s.in1 := rfl
@[simp] theorem storeByte_in2 (b : Byte) (s : State) : (storeByte b s).in2 = s.in2 := rfl
@[simp] theorem storeByte_inlen (b : Byte) (s : State) : (storeByte b s).inlen = s.inlen := rfl
@[simp] theorem storeByte_ptr (b : Byte) (s : State) : (storeByte b s).ptr = s.ptr := rfl
@[simp] theorem storeByte_rd (b : Byte) (s : State) : (storeByte b s).rd = s.rd := rfl
@[simp] theorem storeByte_scan (b : Byte) (s : State) : (storeByte b s).scan = s.scan := rfl
@[simp] theorem storeByte_wr (b : Byte) (s : State) : (storeByte b s).wr = advance s.wr 1 := rfl
@[simp] theorem storeByte_fstart (b : Byte) (s : State) : (storeByte b s).fstart = s.fstart := rfl
@[simp] theorem storeByte_flen (b : Byte) (s : State) : (storeByte b s).flen = s.flen := rfl
@[simp] theorem storeByte_win (b : Byte) (s : State) : (storeByte b s).win = Memory.writeAt s.win s.wr.toNat b := rfl
@[simp] theorem storeByte_pending (b : Byte) (s : State) : (storeByte b s).pending = s.pending := rfl
@[simp] theorem storeByte_resp (b : Byte) (s : State) : (storeByte b s).resp = s.resp := rfl

@[simp] theorem respond_code (v : Word) (s : State) : (respond v s).code = s.code := rfl
@[simp] theorem respond_ferr (v : Word) (s : State) : (respond v s).ferr = s.ferr := rfl
@[simp] theorem respond_ctrl (v : Word) (s : State) : (respond v s).ctrl = s.ctrl := rfl
@[simp] theorem respond_valLo (v : Word) (s : State) : (respond v s).valLo = s.valLo := rfl
@[simp] theorem respond_valHi (v : Word) (s : State) : (respond v s).valHi = s.valHi := rfl
@[simp] theorem respond_cnt (v : Word) (s : State) : (respond v s).cnt = s.cnt := rfl
@[simp] theorem respond_out0 (v : Word) (s : State) : (respond v s).out0 = s.out0 := rfl
@[simp] theorem respond_out1 (v : Word) (s : State) : (respond v s).out1 = s.out1 := rfl
@[simp] theorem respond_out2 (v : Word) (s : State) : (respond v s).out2 = s.out2 := rfl
@[simp] theorem respond_in0 (v : Word) (s : State) : (respond v s).in0 = s.in0 := rfl
@[simp] theorem respond_in1 (v : Word) (s : State) : (respond v s).in1 = s.in1 := rfl
@[simp] theorem respond_in2 (v : Word) (s : State) : (respond v s).in2 = s.in2 := rfl
@[simp] theorem respond_inlen (v : Word) (s : State) : (respond v s).inlen = s.inlen := rfl
@[simp] theorem respond_ptr (v : Word) (s : State) : (respond v s).ptr = s.ptr := rfl
@[simp] theorem respond_rd (v : Word) (s : State) : (respond v s).rd = s.rd := rfl
@[simp] theorem respond_scan (v : Word) (s : State) : (respond v s).scan = s.scan := rfl
@[simp] theorem respond_wr (v : Word) (s : State) : (respond v s).wr = s.wr := rfl
@[simp] theorem respond_fstart (v : Word) (s : State) : (respond v s).fstart = s.fstart := rfl
@[simp] theorem respond_flen (v : Word) (s : State) : (respond v s).flen = s.flen := rfl
@[simp] theorem respond_win (v : Word) (s : State) : (respond v s).win = s.win := rfl
@[simp] theorem respond_pending (v : Word) (s : State) : (respond v s).pending = s.pending := rfl
@[simp] theorem respond_resp (v : Word) (s : State) : (respond v s).resp = some v := rfl

@[simp] theorem softReset_code (s : State) : (softReset s).code = .ok := rfl
@[simp] theorem softReset_ferr (s : State) : (softReset s).ferr = .ok := rfl
@[simp] theorem softReset_ctrl (s : State) : (softReset s).ctrl = s.ctrl := rfl
@[simp] theorem softReset_valLo (s : State) : (softReset s).valLo = 0 := rfl
@[simp] theorem softReset_valHi (s : State) : (softReset s).valHi = 0 := rfl
@[simp] theorem softReset_cnt (s : State) : (softReset s).cnt = 0 := rfl
@[simp] theorem softReset_out0 (s : State) : (softReset s).out0 = 0 := rfl
@[simp] theorem softReset_out1 (s : State) : (softReset s).out1 = 0 := rfl
@[simp] theorem softReset_out2 (s : State) : (softReset s).out2 = 0 := rfl
@[simp] theorem softReset_in0 (s : State) : (softReset s).in0 = 0 := rfl
@[simp] theorem softReset_in1 (s : State) : (softReset s).in1 = 0 := rfl
@[simp] theorem softReset_in2 (s : State) : (softReset s).in2 = 0 := rfl
@[simp] theorem softReset_inlen (s : State) : (softReset s).inlen = 0 := rfl
@[simp] theorem softReset_ptr (s : State) : (softReset s).ptr = 0 := rfl
@[simp] theorem softReset_rd (s : State) : (softReset s).rd = 0 := rfl
@[simp] theorem softReset_scan (s : State) : (softReset s).scan = 0 := rfl
@[simp] theorem softReset_wr (s : State) : (softReset s).wr = 0 := rfl
@[simp] theorem softReset_fstart (s : State) : (softReset s).fstart = 0 := rfl
@[simp] theorem softReset_flen (s : State) : (softReset s).flen = 0 := rfl
@[simp] theorem softReset_win (s : State) : (softReset s).win = s.win := rfl
@[simp] theorem softReset_pending (s : State) : (softReset s).pending = s.pending := rfl
@[simp] theorem softReset_resp (s : State) : (softReset s).resp = s.resp := rfl

@[simp] theorem beginAccess_code (rest : List HostEvent) (s : State) : (beginAccess rest s).code = s.code := rfl
@[simp] theorem beginAccess_ferr (rest : List HostEvent) (s : State) : (beginAccess rest s).ferr = s.ferr := rfl
@[simp] theorem beginAccess_ctrl (rest : List HostEvent) (s : State) : (beginAccess rest s).ctrl = s.ctrl := rfl
@[simp] theorem beginAccess_valLo (rest : List HostEvent) (s : State) : (beginAccess rest s).valLo = s.valLo := rfl
@[simp] theorem beginAccess_valHi (rest : List HostEvent) (s : State) : (beginAccess rest s).valHi = s.valHi := rfl
@[simp] theorem beginAccess_cnt (rest : List HostEvent) (s : State) : (beginAccess rest s).cnt = s.cnt := rfl
@[simp] theorem beginAccess_out0 (rest : List HostEvent) (s : State) : (beginAccess rest s).out0 = s.out0 := rfl
@[simp] theorem beginAccess_out1 (rest : List HostEvent) (s : State) : (beginAccess rest s).out1 = s.out1 := rfl
@[simp] theorem beginAccess_out2 (rest : List HostEvent) (s : State) : (beginAccess rest s).out2 = s.out2 := rfl
@[simp] theorem beginAccess_in0 (rest : List HostEvent) (s : State) : (beginAccess rest s).in0 = s.in0 := rfl
@[simp] theorem beginAccess_in1 (rest : List HostEvent) (s : State) : (beginAccess rest s).in1 = s.in1 := rfl
@[simp] theorem beginAccess_in2 (rest : List HostEvent) (s : State) : (beginAccess rest s).in2 = s.in2 := rfl
@[simp] theorem beginAccess_inlen (rest : List HostEvent) (s : State) : (beginAccess rest s).inlen = s.inlen := rfl
@[simp] theorem beginAccess_ptr (rest : List HostEvent) (s : State) : (beginAccess rest s).ptr = s.ptr := rfl
@[simp] theorem beginAccess_rd (rest : List HostEvent) (s : State) : (beginAccess rest s).rd = s.rd := rfl
@[simp] theorem beginAccess_scan (rest : List HostEvent) (s : State) : (beginAccess rest s).scan = s.scan := rfl
@[simp] theorem beginAccess_wr (rest : List HostEvent) (s : State) : (beginAccess rest s).wr = s.wr := rfl
@[simp] theorem beginAccess_fstart (rest : List HostEvent) (s : State) : (beginAccess rest s).fstart = s.fstart := rfl
@[simp] theorem beginAccess_flen (rest : List HostEvent) (s : State) : (beginAccess rest s).flen = s.flen := rfl
@[simp] theorem beginAccess_win (rest : List HostEvent) (s : State) : (beginAccess rest s).win = s.win := rfl
@[simp] theorem beginAccess_pending (rest : List HostEvent) (s : State) : (beginAccess rest s).pending = rest := rfl
@[simp] theorem beginAccess_resp (rest : List HostEvent) (s : State) : (beginAccess rest s).resp = none := rfl

@[simp] theorem issue_code (p : PortAccess) (s : State) : (issue p s).code = s.code := rfl
@[simp] theorem issue_ferr (p : PortAccess) (s : State) : (issue p s).ferr = s.ferr := rfl
@[simp] theorem issue_ctrl (p : PortAccess) (s : State) : (issue p s).ctrl = s.ctrl := rfl
@[simp] theorem issue_valLo (p : PortAccess) (s : State) : (issue p s).valLo = s.valLo := rfl
@[simp] theorem issue_valHi (p : PortAccess) (s : State) : (issue p s).valHi = s.valHi := rfl
@[simp] theorem issue_cnt (p : PortAccess) (s : State) : (issue p s).cnt = s.cnt := rfl
@[simp] theorem issue_out0 (p : PortAccess) (s : State) : (issue p s).out0 = s.out0 := rfl
@[simp] theorem issue_out1 (p : PortAccess) (s : State) : (issue p s).out1 = s.out1 := rfl
@[simp] theorem issue_out2 (p : PortAccess) (s : State) : (issue p s).out2 = s.out2 := rfl
@[simp] theorem issue_in0 (p : PortAccess) (s : State) : (issue p s).in0 = s.in0 := rfl
@[simp] theorem issue_in1 (p : PortAccess) (s : State) : (issue p s).in1 = s.in1 := rfl
@[simp] theorem issue_in2 (p : PortAccess) (s : State) : (issue p s).in2 = s.in2 := rfl
@[simp] theorem issue_inlen (p : PortAccess) (s : State) : (issue p s).inlen = s.inlen := rfl
@[simp] theorem issue_ptr (p : PortAccess) (s : State) : (issue p s).ptr = s.ptr := rfl
@[simp] theorem issue_rd (p : PortAccess) (s : State) : (issue p s).rd = s.rd := rfl
@[simp] theorem issue_scan (p : PortAccess) (s : State) : (issue p s).scan = s.scan := rfl
@[simp] theorem issue_wr (p : PortAccess) (s : State) : (issue p s).wr = s.wr := rfl
@[simp] theorem issue_fstart (p : PortAccess) (s : State) : (issue p s).fstart = s.fstart := rfl
@[simp] theorem issue_flen (p : PortAccess) (s : State) : (issue p s).flen = s.flen := rfl
@[simp] theorem issue_win (p : PortAccess) (s : State) : (issue p s).win = s.win := rfl
@[simp] theorem issue_pending (p : PortAccess) (s : State) : (issue p s).pending = .access p :: s.pending := rfl
@[simp] theorem issue_resp (p : PortAccess) (s : State) : (issue p s).resp = s.resp := rfl

end Sys2Proof.Machine
end

