-- ==== Sys2Proof/Laws/Ops.lean ====
section
/-! SUPPORT. Laws/Ops.lean: what each shared operation can do, said once. -/

namespace Sys2Proof.Machine

open Sys2Proof

/-- RXCAP lies in the range of R2. -/
theorem rxcap_bounds : 16 ≤ Config.rxcap ∧ Config.rxcap ≤ 2 ^ 31 := by
  unfold Config.rxcap
  omega

@[simp] theorem posDist_self (a : Position) : posDist a a = 0 := by
  simp [posDist]

theorem posDist_lt (a b : Position) : posDist a b < 2 ^ 32 := (b - a).isLt

theorem posDist_eq_zero (a b : Position) : posDist a b = 0 ↔ b = a := by
  unfold posDist
  constructor <;> intro h <;> bv_omega

@[simp] theorem advance_zero (p : Position) : advance p 0 = p := by
  simp [advance]

theorem advance_advance (p : Position) (m n : Nat) : advance (advance p m) n = advance p (m + n) := by
  unfold advance
  rw [BitVec.add_assoc, ← BitVec.ofNat_add]

/-- A position `n` bytes on from `p` is at distance `n` (R5). -/
theorem posDist_advance (p : Position) (n : Nat) (h : n < 2 ^ 32) : posDist p (advance p n) = n := by
  unfold posDist advance
  bv_omega

/-- A read of the window sees the storage alone. -/
theorem winRead_congr (s t : State) (h : t.win = s.win) (p : Position) : winRead t p = winRead s p := by
  unfold winRead
  rw [h]

/-- Latching: the first fatal code stays (R163). -/
theorem latch_cases (c : Code) (s : State) :
    (s.ferr = .ok ∧ latch c s = setFerr c s) ∨ (s.ferr ≠ .ok ∧ latch c s = s) := by
  unfold latch
  by_cases h : s.ferr = .ok
  · exact .inl ⟨h, if_pos h⟩
  · exact .inr ⟨h, if_neg h⟩

/-- A push to a full window latches EOVF, and any other stores the byte at WR (R140). -/
theorem pushByte_cases (cap : Nat) (b : Byte) (s : State) :
    (posDist s.rd s.wr = cap ∧ pushByte cap b s = latch .eovf s) ∨
      (posDist s.rd s.wr ≠ cap ∧ pushByte cap b s = storeByte b s) := by
  unfold pushByte
  by_cases h : posDist s.rd s.wr = cap
  · exact .inl ⟨h, if_pos h⟩
  · exact .inr ⟨h, if_neg h⟩

end Sys2Proof.Machine
end

