-- ==== Sys2Proof/Laws/Meanings.lean ====
section
/-! SUPPORT. Laws/Meanings.lean: what the shared parts of the meanings can do, said once, so that later proofs cite it and
unfold nothing. -/

namespace Sys2Proof.Machine

open Sys2Proof

/-- The 64-bit operand (R19). -/
theorem operand64_eq (s : State) : operand64 s = s.valHi.toNat * 2 ^ 32 + s.valLo.toNat := by
  rw [operand64]

/-- The operands lie below the bounds their encoders take (R101). -/
theorem operand32_lt (s : State) : operand32 s < 2 ^ widthBits .w32 := s.valLo.isLt

theorem operand64_lt (s : State) : operand64 s < 2 ^ widthBits .w64 := by
  have h1 := s.valLo.isLt
  have h2 := s.valHi.isLt
  simp only [operand64, widthBits]
  omega

/-- The four lanes of a register made of four bytes (R53). -/
theorem lane_laneWord (a b c d : Byte) :
    lane (laneWord a b c d) 0 = a ∧ lane (laneWord a b c d) 1 = b ∧ lane (laneWord a b c d) 2 = c ∧
      lane (laneWord a b c d) 3 = d := by
  unfold lane laneWord
  refine ⟨?_, ?_, ?_, ?_⟩ <;> (ext i hi; interval_cases i <;> simp)

/-- A register of two bytes has 0 above them (R21). -/
theorem laneWord_high (a b : Byte) : (laneWord a b 0 0).extractLsb' 16 16 = 0 := by
  unfold laneWord
  ext i hi
  interval_cases i <;> simp

/-- After PutOut, `out[j]` is byte `j` of the sequence, 0x00 past its end (R103). -/
theorem outByte_putOut (bs : List Byte) (s : State) (j : Nat) (hj : j < 10) :
    outByte (putOut bs s) j = bs.getD j 0 := by
  interval_cases j <;> simp [outByte, lane_laneWord]

/-- OUT2 holds no byte in bits 31:16 (R21). -/
theorem putOut_high (bs : List Byte) (s : State) : (putOut bs s).out2.extractLsb' 16 16 = 0 := by
  rw [putOut_out2]
  exact laneWord_high _ _

/-- Encoding writes OUT, CNT and CODE and nothing else (R73). -/
theorem encodeOut_eq (w : Width) (v : Nat) (s : State) : encodeOut w v s =
    { s with
      out0 := (putOut (varEncode w v) s).out0, out1 := (putOut (varEncode w v) s).out1,
      out2 := (putOut (varEncode w v) s).out2, cnt := BitVec.ofNat 32 (varLen w v), code := .ok } := by
  unfold encodeOut finish setCnt
  rw [varEncode_length]
  rfl

/-- LEN32 and LEN64 write CNT and CODE and nothing else (R73). -/
theorem lengthOut_eq (w : Width) (v : Nat) (s : State) :
    lengthOut w v s = { s with cnt := BitVec.ofNat 32 (varLen w v), code := .ok } := rfl

/-- The three results of a decode, as they are written (R104). -/
theorem decWriteback_cases (w : Width) (r : Decoded) (s : State) :
    (∃ v k, r = .ok v k ∧ decWriteback w r s =
      { s with valLo := BitVec.ofNat 32 v, valHi := decodedHi w v, cnt := BitVec.ofNat 32 k, code := .ok }) ∨
    (r = .need ∧ decWriteback w r s = { s with code := .need }) ∨
    (r = .invalid ∧ decWriteback w r s = { s with code := .evarint }) := by
  cases r with
  | ok v k => exact .inl ⟨v, k, rfl, rfl⟩
  | need => exact .inr (.inl ⟨rfl, rfl⟩)
  | invalid => exact .inr (.inr ⟨rfl, rfl⟩)

/-- The four ends of a decode at PTR (R111, R112, R113). -/
theorem decodeAtPtr_cases (w : Width) (s : State) :
    (∃ v k, InClosed s.rd s.wr s.ptr ∧ decodeWin w s.ptr s = .ok v k ∧ decodeAtPtr w s =
      { s with
        valLo := BitVec.ofNat 32 v, valHi := decodedHi w v, cnt := BitVec.ofNat 32 k,
        ptr := advance s.ptr k, code := .ok }) ∨
    (InClosed s.rd s.wr s.ptr ∧ decodeWin w s.ptr s = .need ∧ decodeAtPtr w s = { s with code := .need }) ∨
    (InClosed s.rd s.wr s.ptr ∧ decodeWin w s.ptr s = .invalid ∧ decodeAtPtr w s = { s with code := .evarint }) ∨
    (¬ InClosed s.rd s.wr s.ptr ∧ decodeAtPtr w s = { s with code := .eptr }) := by
  unfold decodeAtPtr
  by_cases h : InClosed s.rd s.wr s.ptr
  · rw [if_pos h]
    cases hd : decodeWin w s.ptr s with
    | ok v k => exact .inl ⟨v, k, h, rfl, rfl⟩
    | need => exact .inr (.inl ⟨h, rfl, rfl⟩)
    | invalid => exact .inr (.inr (.inl ⟨h, rfl, rfl⟩))
  · rw [if_neg h]
    exact .inr (.inr (.inr ⟨h, rfl⟩))

/-- A stream-fatal outcome with nothing latched before sets both codes (R163). -/
theorem failStream_of_healthy (c : Code) (s : State) (h : s.ferr = .ok) :
    failStream c s = { s with code := c, ferr := c } := by
  unfold failStream latch
  rw [if_pos h]
  rfl

/-- The six ends of FDETECT's tests on a healthy stream, in their order (R130, R165). -/
theorem judgeFrame_cases (cap : Nat) (r : Decoded) (s : State) (h : s.ferr = .ok) :
    (r = .need ∧ judgeFrame cap r s = { s with code := .need }) ∨
    (r = .invalid ∧ judgeFrame cap r s = { s with code := .evarint, ferr := .evarint }) ∨
    (∃ k, r = .ok 0 k ∧ judgeFrame cap r s = { s with code := .eframe, ferr := .eframe }) ∨
    (∃ len k, r = .ok len k ∧ 1 ≤ len ∧ cap < k + len ∧
      judgeFrame cap r s = { s with code := .etoobig, ferr := .etoobig }) ∨
    (∃ len k, r = .ok len k ∧ 1 ≤ len ∧ k + len ≤ cap ∧ posDist s.scan s.wr < k + len ∧
      judgeFrame cap r s = { s with code := .need }) ∨
    (∃ len k, r = .ok len k ∧ 1 ≤ len ∧ k + len ≤ cap ∧ k + len ≤ posDist s.scan s.wr ∧
      judgeFrame cap r s = finish .ok (foundFrame k len s)) := by
  cases r with
  | need => exact .inl ⟨rfl, rfl⟩
  | invalid => exact .inr (.inl ⟨rfl, failStream_of_healthy _ _ h⟩)
  | ok len k =>
    refine .inr (.inr ?_)
    simp only [judgeFrame, failStream_of_healthy _ _ h]
    by_cases h0 : len = 0
    · exact .inl ⟨k, by rw [h0], if_pos h0⟩
    · rw [if_neg h0]
      by_cases h1 : cap < k + len
      · exact .inr (.inl ⟨len, k, rfl, by omega, h1, if_pos h1⟩)
      · rw [if_neg h1]
        by_cases h2 : posDist s.scan s.wr < k + len
        · exact .inr (.inr (.inl ⟨len, k, rfl, by omega, by omega, h2, if_pos h2⟩))
        · exact .inr (.inr (.inr ⟨len, k, rfl, by omega, by omega, by omega, if_neg h2⟩))

/-- When FDETECT answers a next state, and which (R130). -/
theorem fdetect_cases (s t : State) (h : exec .fdetect s = .next t) :
    (s.ferr ≠ .ok ∧ t = { s with code := s.ferr }) ∨
    (s.ferr = .ok ∧ InClosed s.rd s.wr s.scan ∧
      t = judgeFrame Config.rxcap (decodeWin .w32 s.scan s) s) := by
  simp only [exec, execFdetect, detectFrame] at h
  split at h
  · injection h with h
    exact .inl ⟨‹_›, h.symm⟩
  · rename_i hf
    split at h
    · injection h with h
      exact .inr ⟨by simpa using hf, ‹_›, h.symm⟩
    · cases h

/-- The three ends of FEOS (R133). -/
theorem feos_cases (s : State) :
    (s.ferr ≠ .ok ∧ exec .feos s = .next { s with code := s.ferr }) ∨
    (s.ferr = .ok ∧ s.scan ≠ s.wr ∧ exec .feos s = .next { s with code := .eeos, ferr := .eeos }) ∨
    (s.ferr = .ok ∧ s.scan = s.wr ∧ exec .feos s = .next { s with code := .ok }) := by
  simp only [exec, execFeos]
  by_cases hf : s.ferr = .ok
  · rw [if_neg (by simpa using hf), failStream_of_healthy _ _ hf]
    by_cases hs : s.scan = s.wr
    · exact .inr (.inr ⟨hf, hs, by rw [if_neg (by simpa using hs)]; rfl⟩)
    · exact .inr (.inl ⟨hf, hs, by rw [if_pos hs]⟩)
  · exact .inl ⟨hf, by rw [if_pos hf]; rfl⟩

/-- A register write changes one of the eight RW registers, or nothing (R152). -/
theorem writeReg_frame (r : Option Reg) (wdata : Word) (s : State) :
    writeReg r wdata s = { s with
      ctrl := (writeReg r wdata s).ctrl, valLo := (writeReg r wdata s).valLo, valHi := (writeReg r wdata s).valHi,
      in0 := (writeReg r wdata s).in0, in1 := (writeReg r wdata s).in1, in2 := (writeReg r wdata s).in2,
      inlen := (writeReg r wdata s).inlen, ptr := (writeReg r wdata s).ptr } := by
  rcases r with _ | r
  · rfl
  · cases r <;> rfl

end Sys2Proof.Machine
end

