-- ==== Sys2Proof/Laws/PerInstr.lean ====
section
/-! SUPPORT. Laws/PerInstr.lean: statements about every instruction as syntax, one lemma for each constructor. -/

namespace Sys2Proof.Laws.RoundTrip

open Sys2Proof

/-- Decoding the transaction a well-formed instruction is encoded as answers the instruction. -/
def Statement (i : Instr) : Prop := wellFormed i = true → decode (encode i) = i

theorem enc32 : Statement .enc32 := fun _ => by decide
theorem enc64 : Statement .enc64 := fun _ => by decide
theorem len32 : Statement .len32 := fun _ => by decide
theorem len64 : Statement .len64 := fun _ => by decide
theorem dec32r : Statement .dec32r := fun _ => by decide
theorem dec64r : Statement .dec64r := fun _ => by decide
theorem dec32w : Statement .dec32w := fun _ => by decide
theorem dec64w : Statement .dec64w := fun _ => by decide
theorem fdetect : Statement .fdetect := fun _ => by decide
theorem frelease : Statement .frelease := fun _ => by decide
theorem fhdr : Statement .fhdr := fun _ => by decide
theorem feos : Statement .feos := fun _ => by decide
theorem sreset : Statement .sreset := fun _ => by decide
theorem illegal (w : Word) : Statement (.illegal w) := fun h => by
  have hw : legalCommand w = false := by simpa [wellFormed] using h
  simpa [encode, decode] using (decodeCommand_illegal_iff w).2 hw
theorem rxpush (wdata : Word) : Statement (.rxpush wdata) := fun _ => by
  simp [encode, decode, cmdIndex, rxdataIndex]
theorem rxpeek : Statement .rxpeek := fun _ => by decide
theorem regwr (a : RegIndex) (wdata : Word) : Statement (.regwr a wdata) := fun h => by
  simp only [wellFormed, Bool.and_eq_true, bne_iff_ne, ne_eq] at h
  simp [encode, decode, h.1, h.2]
theorem regrd (a : RegIndex) : Statement (.regrd a) := fun h => by
  simp only [wellFormed, bne_iff_ne, ne_eq] at h
  simp [encode, decode, h]

end Sys2Proof.Laws.RoundTrip
end

