-- ==== Sys2Proof/Tests/Slice0.lean ====
section
/-! SUPPORT. Tests/Slice0.lean: small tests whose expected results come from spec/95_test_vectors.md (the vector's name
stands in each comment) or from the tables of spec/30_encoding.md, and for every statement with hypotheses a state and
operands that meet them all. -/

namespace Sys2Proof.Tests

open Sys2Proof Sys2Proof.Machine

/-! ## Helpers -/

/-- The reset state after pushing bytes with room for them. -/
def loaded (bytes : List Byte) : State := bytes.foldl (fun s b => storeByte b s) State.reset

/-- The answer is a next state with the property. -/
def ends (r : Result) (ok : State → Bool) : Bool :=
  match r with
  | .next t => ok t
  | .fault _ => false
  | .refused _ => false

/-- The reset state with `in[]` and INLEN set, and VAL and CNT as the V-DECR vectors start (R76 `setin`). -/
def withIn (w0 w1 w2 n ctrl : Word) : State :=
  { State.reset with
    in0 := w0, in1 := w1, in2 := w2, inlen := n, ctrl := ctrl, valHi := 0xBEEF, valLo := 0xDEAD, cnt := 9 }

/-- VAL_HI, VAL_LO, CNT and STATUS.CODE. -/
def decodedIs (hi lo cnt : Word) (c : Code) (t : State) : Bool :=
  t.valHi == hi && t.valLo == lo && t.cnt == cnt && t.code == c

/-- OUT0, OUT1, OUT2 and CNT. -/
def outIs (o0 o1 o2 cnt : Word) (t : State) : Bool :=
  t.out0 == o0 && t.out1 == o1 && t.out2 == o2 && t.cnt == cnt

/-- The FDETECT results FSTART, FLEN, SCAN and CNT, with code OK. -/
def foundIs (fstart flen scan cnt : Word) (t : State) : Bool :=
  t.code == .ok && t.fstart == fstart && t.flen == flen && t.scan == scan && t.cnt == cnt && t.ptr == fstart

/-! ## WellFormed: each check refuses an ill-formed term -/

theorem test_illegal_with_a_legal_word_is_ill_formed : wellFormed (.illegal 0x00000001) = false := by decide
theorem test_regwr_to_cmd_is_ill_formed : wellFormed (.regwr 0 1) = false := by decide
theorem test_regwr_to_rxdata_is_ill_formed : wellFormed (.regwr 13 1) = false := by decide
theorem test_regrd_of_rxpeek_is_ill_formed : wellFormed (.regrd 14) = false := by decide

/-! ## Decode: the words of opcode_table.json's "encoding", and the offsets of R12 -/

theorem test_decode_enc32 : decode (.write 0 0b00000000000000000000000000000001) = .enc32 := by decide
theorem test_decode_enc64 : decode (.write 0 0b00000000000000000000000000000010) = .enc64 := by decide
theorem test_decode_len32 : decode (.write 0 0b00000000000000000000000000000011) = .len32 := by decide
theorem test_decode_len64 : decode (.write 0 0b00000000000000000000000000000100) = .len64 := by decide
theorem test_decode_dec32r : decode (.write 0 0b00000000000000000000000000000101) = .dec32r := by decide
theorem test_decode_dec64r : decode (.write 0 0b00000000000000000000000000000110) = .dec64r := by decide
theorem test_decode_dec32w : decode (.write 0 0b00000000000000000000000000000111) = .dec32w := by decide
theorem test_decode_dec64w : decode (.write 0 0b00000000000000000000000000001000) = .dec64w := by decide
theorem test_decode_fdetect : decode (.write 0 0b00000000000000000000000000010000) = .fdetect := by decide
theorem test_decode_frelease : decode (.write 0 0b00000000000000000000000000010001) = .frelease := by decide
theorem test_decode_fhdr : decode (.write 0 0b00000000000000000000000000010010) = .fhdr := by decide
theorem test_decode_feos : decode (.write 0 0b00000000000000000000000000010011) = .feos := by decide
theorem test_decode_sreset : decode (.write 0 0b00000000000000000000000000011111) = .sreset := by decide
/-- V-SYS-3 -/
theorem test_decode_illegal : [0x00000009, 0x00000101, 0x00000000, 0x00000014, 0x00000020].map
    (fun w : Word => decode (.write 0 w)) =
    [.illegal 0x9, .illegal 0x101, .illegal 0, .illegal 0x14, .illegal 0x20] := by decide
theorem test_decode_rxpush : decodeLine .write 0x34 0x41 = .ok (.write 13 0x41) ∧
    decode (.write 13 0x41) = .rxpush 0x41 := ⟨rfl, by decide⟩
theorem test_decode_rxpeek : decodeLine .read 0x38 0 = .ok (.read 14) ∧ decode (.read 14) = .rxpeek :=
  ⟨rfl, by decide⟩
theorem test_decode_regwr : decodeLine .write 0x3C 7 = .ok (.write 15 7) ∧ decode (.write 15 7) = .regwr 15 7 :=
  ⟨rfl, by decide⟩
theorem test_decode_regrd : decodeLine .read 0xFC 0 = .ok (.read 63) ∧ decode (.read 63) = .regrd 63 :=
  ⟨rfl, by decide⟩
theorem test_reject_misaligned : decodeLine .read 0x06 0 = .error (.misaligned 6) := rfl
theorem test_reject_outside_window : decodeLine .read 0x100 0 = .error (.outsideWindow 256) := rfl
theorem test_reject_wide_data : decodeLine .write 0x08 0x100000000 = .error (.dataTooWide 0x100000000) := rfl
theorem test_table_words : [decodeTableWord 32 0x10, decodeTableWord 8 0x34, decodeTableWord 8 0x38,
    decodeTableWord 8 0x04, decodeTableWord 16 1] =
    [some .fdetect, some (.rxpush 0), some .rxpeek, none, none] := by decide

/-! ## The VarInt codec -/

/-- V-ENC-15 -/
theorem test_enc32_all_ones : ends (exec .enc32 { State.reset with valLo := 0xFFFFFFFF, valHi := 7 })
    (outIs 0xFFFFFFFF 0x0000000F 0 5) = true := by decide
/-- V-ENC-23: the encode of 1 zero-fills what ENC64 of 2^64-1 left -/
theorem test_enc32_zero_fills : ends (exec .enc32
    { State.reset with valLo := 1, out0 := 0xFFFFFFFF, out1 := 0xFFFFFFFF, out2 := 0x1FF })
    (outIs 1 0 0 1) = true := by decide
/-- V-ENC-20 -/
theorem test_enc64_top_bit : ends (exec .enc64 { State.reset with valHi := 0x80000000 })
    (outIs 0x80808080 0x80808080 0x00000180 10) = true := by decide
/-- V-ENC-18 -/
theorem test_enc64_two_to_35 : ends (exec .enc64 { State.reset with valHi := 8 })
    (outIs 0x80808080 0x00000180 0 6) = true := by decide
/-- V-LEN-5 and V-LEN-7 -/
theorem test_len32 : ends (exec .len32 { State.reset with valLo := 16384, valHi := 7 }) (outIs 0 0 0 3) = true := by
  decide
/-- V-LEN-9 -/
theorem test_len64 : ends (exec .len64 { State.reset with valHi := 0x7FFFFFFF, valLo := 0xFFFFFFFF })
    (outIs 0 0 0 9) = true := by decide
/-- V-DECR-14, under CTRL 2 and CTRL 3 -/
theorem test_dec32r_truncates : ends (exec .dec32r (withIn 0xFFFFFFFF 0x10 0 5 2))
    (decodedIs 0 0x0FFFFFFF 5 .ok) = true ∧
    ends (exec .dec32r (withIn 0xFFFFFFFF 0x10 0 5 3)) (decodedIs 0xBEEF 0xDEAD 9 .evarint) = true := by decide
/-- V-DECR-3 and V-DECR-4 -/
theorem test_dec32r_need_or_invalid : ends (exec .dec32r (withIn 0x80808080 0 0 4 0))
    (decodedIs 0xBEEF 0xDEAD 9 .need) = true ∧
    ends (exec .dec32r (withIn 0x80808080 0x80 0 5 0)) (decodedIs 0xBEEF 0xDEAD 9 .evarint) = true := by decide
/-- V-DECR-28 under CTRL 3 -/
theorem test_dec64r_truncates : ends (exec .dec64r (withIn 0x80808080 0x80808080 0x7F80 10 3))
    (decodedIs 0x80000000 0 10 .ok) = true := by decide
/-- V-DECR-33 under CTRL 0 and CTRL 1 -/
theorem test_dec64r_stops_at_terminator : ends (exec .dec64r (withIn 0x11008080 0x55443322 0x99887766 12 0))
    (decodedIs 0 0 3 .ok) = true ∧
    ends (exec .dec64r (withIn 0x11008080 0x55443322 0x99887766 12 1))
      (decodedIs 0xBEEF 0xDEAD 9 .evarint) = true := by decide
/-- V-DECW-1 -/
theorem test_dec32w_advances : ends (exec .dec32w (loaded [0xAC, 0x02, 0x80]))
    (fun t => decodedIs 0 0x12C 2 .ok t && t.ptr == 2 && t.rd == 0 && t.wr == 3) = true := by decide
/-- V-DECW-5 and V-DECW-6 -/
theorem test_dec32w_out_of_window :
    ends (exec .dec32w { loaded [0xAC, 0x02, 0x80] with ptr := 4 }) (fun t => t.code == .eptr && t.ptr == 4) = true ∧
    ends (exec .dec32w { loaded [0xAC, 0x02, 0x80] with ptr := 0xFFFFFFFF })
      (fun t => t.code == .eptr && t.ptr == 0xFFFFFFFF) = true := by decide
/-- V-DECW-7 -/
theorem test_dec64w_nine_bytes :
    ends (exec .dec64w (loaded [0xFF, 0xFF, 0xFF, 0xFF, 0xFF, 0xFF, 0xFF, 0xFF, 0x7F]))
      (fun t => decodedIs 0x7FFFFFFF 0xFFFFFFFF 9 .ok t && t.ptr == 9) = true := by decide
/-- V-DECW-4, at width 64 -/
theorem test_dec64w_at_wr : ends (exec .dec64w { loaded [0xAC, 0x02, 0x80] with ptr := 3 })
    (fun t => decodedIs 0 0 0 .need t && t.ptr == 3) = true := by decide

/-! ## The frame detector; the vectors take RXCAP = 64 -/

/-- V-FD-4 -/
theorem test_fdetect_finds_frame : ends
    (detectFrame 64 (loaded [0x08, 0x03, 0xA0, 0xA1, 0xA2, 0xA3, 0xA4, 0xA5, 0xA6])) (foundIs 1 8 9 1) = true := by
  decide
/-- V-FD-5, V-FD-7, V-FD-9, V-FD-10, V-FD-14, and V-FD-15 under MINREQ -/
theorem test_fdetect_errors :
    [detectFrame 64 (loaded [0x00]), detectFrame 64 (loaded [0x80, 0x80, 0x80, 0x80, 0x80]),
      detectFrame 64 (loaded [0x40]), detectFrame 64 (loaded [0x3F]), detectFrame 64 (loaded [0xC0, 0x00]),
      detectFrame 64 { loaded [0xC0, 0x00] with ctrl := 1 }].map
      (fun r => [Code.eframe, .evarint, .etoobig, .need].map fun c => ends r fun t => t.code == c && t.scan == 0) =
    [[true, false, false, false], [false, true, false, false], [false, false, true, false],
      [false, false, false, true], [false, false, true, false], [false, true, false, false]] := by decide
/-- V-FR-2 -/
theorem test_frelease : ends (exec .frelease { loaded [0x01, 0x07, 0x02, 0x08, 0x09] with scan := 2 })
    (fun t => t.rd == 2 && t.wr == 5 && t.code == .ok && scanpend t) = true := by decide
/-- V-FH-4 and V-FH-6 -/
theorem test_fhdr : ends (exec .fhdr { State.reset with valLo := 300 }) (outIs 0x2AC 0 0 2) = true ∧
    ends (exec .fhdr { State.reset with valHi := 1, out0 := 0x2AC, cnt := 2 })
      (fun t => outIs 0x2AC 0 0 2 t && t.code == .eframe && t.ferr == .ok) = true := by decide
/-- V-FE-3, with STATUS as the vector gives it -/
theorem test_feos_unclean : ends (exec .feos (loaded [0x08, 0x03, 0xA0]))
    (fun t => statusWord 64 t == 0x00040808) = true := by decide
/-- V-FE-6 -/
theorem test_feos_repeats : ends (exec .feos { State.reset with ferr := .eframe })
    (fun t => t.code == .eframe && t.ferr == .eframe) = true := by decide
/-- V-RX-2 -/
theorem test_rxpush_low_byte : ends (exec (.rxpush 0xFFFFFF41) State.reset)
    (fun t => t.wr == 1 && winRead t 0 == 0x41 && t.code == .ok) = true := by decide
/-- V-RX-3 with STATUS as program P6 gives it: the full window, cap 64 -/
theorem test_push_to_full_window : statusWord 64 (pushByte 64 0x11 { State.reset with scan := 64, wr := 64 })
    = 0x00020700 := by decide
/-- V-RX-5 and V-RX-6 -/
theorem test_rxpeek : [({ loaded [0x08, 0x03, 0xA0] with ptr := 1 } : State),
    { loaded [0x08, 0x03, 0xA0] with ptr := 3 }, { loaded [0x08, 0x03, 0xA0] with ptr := 0xFFFFFFFF },
    loaded [0x00]].map (fun s => ends (exec .rxpeek s) fun t => t.resp == some (peekWord s)) =
      [true, true, true, true] ∧
    peekWord { loaded [0x08, 0x03, 0xA0] with ptr := 1 } = 0x103 ∧
    peekWord { loaded [0x08, 0x03, 0xA0] with ptr := 3 } = 0 ∧ peekWord (loaded [0x00]) = 0x100 := by decide
/-- V-FD-19: the frame across the wrap-around of positions -/
theorem test_fdetect_wraps : ends (detectFrame 64
    ([0x02, 0x03, 0xA0, 0x01, 0x05].foldl (fun s b => storeByte b s)
      { State.reset with rd := 0xFFFFFFFE, scan := 0xFFFFFFFE, wr := 0xFFFFFFFE, ptr := 0xFFFFFFFE }))
    (foundIs 0xFFFFFFFF 2 1 1) = true := by decide

/-! ## System and registers -/

/-- V-SYS-1 -/
theorem test_sreset : ends (exec .sreset { loaded [0x08] with ctrl := 3, ferr := .eovf, code := .need, ptr := 5 })
    (fun t => t.ctrl == 3 && statusWord 64 t == 0x00010000 && t.ptr == 0 && t.wr == 0) = true := by decide
/-- V-SYS-3 -/
theorem test_illegal : ends (exec (.illegal 0x101) State.reset)
    (fun t => decide (t = { State.reset with code := .eill })) = true := by decide
/-- V-SYS-4 and V-DECR-34 -/
theorem test_regwr : ends (exec (.regwr 2 0xFFFFFFFC) { State.reset with ctrl := 3 }) (fun t => t.ctrl == 0) = true ∧
    ends (exec (.regwr 12 0xFFFFFFFF) State.reset) (fun t => t.inlen == 12) = true := by decide
/-- V-SYS-5: `wr RD, 5` changes nothing -/
theorem test_regwr_read_only : ends (exec (.regwr 16 5) State.reset) (fun t => decide (t = State.reset)) = true := by
  decide
/-- V-SYS-6 and V-SYS-7 -/
theorem test_regrd : [0, 1, 13, 23, 63].map (fun a : RegIndex => ends (exec (.regrd a) State.reset)
    fun t => t.resp == some (if a = 1 then 0x00010000 else 0)) = [true, true, true, true, true] := by decide

/-! ## A step from reset -/

/-- The table's RXPUSH and FDETECT words run as the first access after reset. -/
theorem test_first_step : ends (step (State.reset.withFetchWord 8 0x34)) (fun t => t.wr == 1) = true ∧
    ends (step (State.reset.withFetchWord 32 0x10)) (fun t => t.code == .need) = true := by decide

/-! ## Witnesses: a state and operands that meet all the hypotheses of a statement, named after it -/

/-- Soundness of a state that holds at most 16 bytes, by evaluation. -/
theorem sound_small (s : State) (h1 : InClosed s.rd s.wr s.scan) (h2 : posDist s.rd s.wr ≤ 16)
    (h3 : (latchable s.ferr && decide (s.inlen.toNat ≤ 12) && s.out2.extractLsb' 16 16 == 0 &&
      s.ctrl.extractLsb' 2 30 == 0 && Memory.wf s.win) = true) : Sound s := by
  simp only [Bool.and_eq_true, decide_eq_true_eq, beq_iff_eq] at h3
  obtain ⟨⟨⟨⟨a, b⟩, c⟩, d⟩, e⟩ := h3
  exact ⟨h1, le_trans h2 rxcap_bounds.1, a, b, c, d, e⟩

/-- A window filled to RXCAP, with SCAN at WR. -/
def fullWindow : State :=
  { State.reset with wr := BitVec.ofNat 32 Config.rxcap, scan := BitVec.ofNat 32 Config.rxcap }

theorem fullWindow_level : posDist fullWindow.rd fullWindow.wr = Config.rxcap := by
  have h := rxcap_bounds
  simp only [fullWindow, State.reset, posDist, BitVec.sub_zero, BitVec.ofNat_eq_ofNat, BitVec.toNat_ofNat]
  omega

theorem witness_DecodeAndEncodeAgree : wellFormed (.illegal 0x101) = true ∧ wellFormed (.regwr 63 5) = true ∧
    wellFormed (.regrd 63) = true := by decide

/-- Both ends of every reserved range, and the opcodes beside them. -/
theorem witness_IllegalWordOnlyReportsEill :
    [0, 9, 0xF, 0x14, 0x1E, 0x20, 0xFF, 0x100, 0xFFFFFFFF].map (fun w : Word => decode (.write 0 w)) =
      [.illegal 0, .illegal 9, .illegal 0xF, .illegal 0x14, .illegal 0x1E, .illegal 0x20, .illegal 0xFF,
        .illegal 0x100, .illegal 0xFFFFFFFF] ∧
    [1, 8, 0x10, 0x13, 0x1F].map (fun w : Word => decode (.write 0 w)) =
      [.enc32, .dec64w, .fdetect, .feos, .sreset] := by decide

theorem witness_StepRunsTheDecodedInstruction :
    (issue (.write 0 1) State.reset).pending = .access (.write 0 1) :: [] ∧ decode (.write 0 1) = .enc32 := by decide

theorem witness_ResetEventSetsEveryRegister :
    ({ loaded [8] with pending := [.reset, .access (.read 1)] } : State).pending = .reset :: [.access (.read 1)] := rfl

theorem witness_NothingHappensWithoutTheHost : State.reset.pending = [] := rfl

theorem witness_FetchWordIsRunNext : decodeTableWord 32 0x1F = some .sreset ∧
    decodeTableWord 8 0x34 = some (.rxpush 0) := by decide

theorem loaded_sound : Sound (loaded [0x01, 0x07]) := sound_small _ (by decide) (by decide) (by decide)

theorem witness_EveryStepKeepsSoundness : ∃ t, Sound (issue (.write 13 0x41) (loaded [0x01, 0x07])) ∧
    step (issue (.write 13 0x41) (loaded [0x01, 0x07])) = .next t ∧ t.wr = 3 := by
  refine ⟨_, sound_small _ (by decide) (by decide) (by decide), rfl, ?_⟩
  decide

theorem witness_SoundStatesNeverStop : Sound (issue (.write 0 0x10) (loaded [0x01, 0x07])) :=
  sound_small _ (by decide) (by decide) (by decide)

theorem witness_HostProgramsRunToTheEnd : Sound (issue (.write 0 0x10) (issue (.read 1) (loaded [0x01, 0x07]))) :=
  sound_small _ (by decide) (by decide) (by decide)

/-- The greatest value of each width: the hypothesis of VarLenIsLeast, VarintRoundTrip and VarintEncodingIsMinimal. -/
theorem witness_VarLenIsLeast : 2 ^ 32 - 1 < 2 ^ widthBits .w32 ∧ 2 ^ 64 - 1 < 2 ^ widthBits .w64 := by decide
theorem witness_VarintRoundTrip : 300 < 2 ^ widthBits .w32 ∧ 2 ^ 35 < 2 ^ widthBits .w64 := by decide
theorem witness_VarintEncodingIsMinimal : 300 < 2 ^ widthBits .w64 ∧ 1 < varLen .w64 300 ∧
    groupSum (fun j => [0xAC, 0x02].getD j 0) 2 = 300 := by decide

/-- Each of the three results of a decode occurs. -/
theorem witness_VarDecodeAnswersWhatTheBytesSay :
    varDecode .w32 false false (fun j => [0xAC, 0x02].getD j 0) 2 = .ok 300 2 ∧
    varDecode .w32 false false (fun _ => 0x80) 4 = .need ∧
    varDecode .w32 false false (fun _ => 0x80) 5 = .invalid := by decide

theorem witness_DecodeIsPrefixStable : 2 ≤ 3 ∧
    (∀ j, j < 2 → (fun i => [0xAC, 0x02, 0xFF].getD i (0 : Byte)) j = (fun i => [0xAC, 0x02].getD i (0 : Byte)) j) ∧
    varDecode .w32 false false (fun j => [0xAC, 0x02].getD j 0) 2 ≠ .need ∧
    varDecode .w32 false false (fun _ => 0x80) 2 = .need := by decide

theorem witness_ByteLanesAreLittleEndian : inByte (withIn 0 0 0xAB000000 12 0) 11 = 0xAB ∧ (11 < 12 ∧ 7 < 8) := by
  decide

/-- PTR inside the window, and at both of its ends. -/
theorem witness_DecodeFromWindowAtPtr_inside : InClosed 0 3 (1 : Position) ∧ InClosed 0 3 (0 : Position) ∧
    InClosed 0 3 (3 : Position) ∧ InClosed (loaded [0xAC, 0x02, 0x80]).rd (loaded [0xAC, 0x02, 0x80]).wr
      (loaded [0xAC, 0x02, 0x80]).ptr := by decide

/-- PTR one past WR, and one before RD. -/
theorem witness_DecodeFromWindowAtPtr_outside :
    ¬ InClosed (loaded [0xAC, 0x02, 0x80]).rd (loaded [0xAC, 0x02, 0x80]).wr 4 ∧
    ¬ InClosed (loaded [0xAC, 0x02, 0x80]).rd (loaded [0xAC, 0x02, 0x80]).wr 0xFFFFFFFF := by decide

/-- The longest VarInt of each width, held to its last byte. -/
theorem witness_WindowDecodeReadsOnlyHeldBytes :
    ends (exec .dec32w (loaded [0x80, 0x80, 0x80, 0x80, 0x01]))
      (fun t => t.code == .ok && posDist 0 t.ptr == 5) = true ∧
    ends (exec .dec64w (loaded [0x80, 0x80, 0x80, 0x80, 0x80, 0x80, 0x80, 0x80, 0x80, 0x01]))
      (fun t => t.code == .ok && posDist 0 t.ptr == 10) = true := by decide

/-- A storage that differs at the last held byte, which no command but DEC64W may reach, and one that differs past it. -/
theorem witness_WindowCommandsReadOnlyTheirBytes :
    AgreeOnHeld (loaded [1, 7, 1, 1, 1, 9]) (loaded [1, 7, 1, 1, 1, 8]).win 0 5 ∧
    AgreeOnHeld (loaded [1, 7]) (loaded [1, 7, 9]).win 0 10 ∧
    AgreeOnHeld (loaded [1, 7]) (loaded [1, 6]).win 0 1 ∧
    ends (exec .dec32w (loaded [1, 7, 1, 1, 1, 9])) (fun t => t.ptr == 1) = true ∧
    ends (exec .dec64w (loaded [1, 7])) (fun t => t.ptr == 1) = true ∧
    ends (exec .fdetect (loaded [1, 7, 1, 1, 1, 9])) (fun t => t.scan == 2) = true ∧
    ends (exec .rxpeek (loaded [1, 7])) (fun t => t.resp == some 0x101) = true := by
  unfold AgreeOnHeld
  decide

theorem witness_FdetectTestsInOrder : (loaded [0x01, 0x07]).ferr = .ok ∧
    InClosed (loaded [0x01, 0x07]).rd (loaded [0x01, 0x07]).wr (loaded [0x01, 0x07]).scan := by decide

/-- The frame `01 07`, complete to the byte. -/
theorem witness_FdetectFindsAWholeFrame :
    (loaded [0x01, 0x07]).ferr = .ok ∧
    InClosed (loaded [0x01, 0x07]).rd (loaded [0x01, 0x07]).wr (loaded [0x01, 0x07]).scan ∧
    DecodesAs .w32 ((loaded [0x01, 0x07]).ctrl.getLsbD 0) ((loaded [0x01, 0x07]).ctrl.getLsbD 1)
      (fun i => winRead (loaded [0x01, 0x07]) ((loaded [0x01, 0x07]).scan + BitVec.ofNat 32 i))
      (posDist (loaded [0x01, 0x07]).scan (loaded [0x01, 0x07]).wr) (.ok 1 1) ∧
    1 ≤ 1 ∧ 1 + 1 ≤ Config.rxcap ∧ 1 + 1 ≤ posDist (loaded [0x01, 0x07]).scan (loaded [0x01, 0x07]).wr := by
  refine ⟨by decide, by decide, ⟨⟨by decide, by decide, by decide, fun j hj => ?_, by decide⟩, by decide, .inl (by decide),
    fun h => ?_⟩, by decide, by decide, by decide⟩
  · omega
  · exact absurd h (by decide)

/-- SCAN one past WR stops FDETECT; SCAN at WR does not. -/
theorem witness_FdetectStopsOnlyOnUndefinedReads :
    exec .fdetect { loaded [0x01, 0x07] with scan := 3 } = .fault .undefinedWinRead ∧
    ends (exec .fdetect { loaded [0x01, 0x07] with scan := 2 }) (fun t => t.code == .need) = true :=
  ⟨rfl, by decide⟩

/-- Two states that differ in RD, VAL_LO and an unscanned byte's neighbour, and agree on what FDETECT depends on. -/
theorem witness_FdetectIsLocal :
    let s : State := { loaded [0xFF, 0x01, 0x07] with scan := 1 }
    let s' : State := { loaded [0x55, 0x01, 0x07] with scan := 1, rd := 1, valLo := 9 }
    s.ferr = s'.ferr ∧ s.ctrl = s'.ctrl ∧ s.scan = s'.scan ∧ posDist s.scan s.wr = posDist s'.scan s'.wr ∧
    (∀ i, i < posDist s.scan s.wr → winRead s (s.scan + BitVec.ofNat 32 i) = winRead s' (s'.scan + BitVec.ofNat 32 i)) ∧
    ends (exec .fdetect s) (fun t => t.code == .ok) = true ∧
    ends (exec .fdetect s') (fun t => t.code == .ok) = true := by decide

theorem witness_FhdrEncodesALegalLength : ({ State.reset with valLo := 1 } : State).valLo ≠ 0 ∧
    State.reset.valLo = 0 := by decide

theorem witness_RxpushStoresOrOverflows_room : Memory.wf (loaded [0x01, 0x07]).win = true ∧
    posDist (loaded [0x01, 0x07]).rd (loaded [0x01, 0x07]).wr ≠ Config.rxcap := by
  refine ⟨by decide, ?_⟩
  have h := rxcap_bounds
  have hd : posDist (loaded [0x01, 0x07]).rd (loaded [0x01, 0x07]).wr = 2 := by decide
  omega

theorem witness_RxpushStoresOrOverflows_full : Memory.wf fullWindow.win = true ∧
    posDist fullWindow.rd fullWindow.wr = Config.rxcap := ⟨rfl, fullWindow_level⟩

/-- PTR at the last held byte, and at WR. -/
theorem witness_RxpeekReturnsTheByteAtPtr :
    InHalfOpen (loaded [0x01, 0x07]).rd (loaded [0x01, 0x07]).wr 1 ∧
    ¬ InHalfOpen (loaded [0x01, 0x07]).rd (loaded [0x01, 0x07]).wr 2 := by decide

theorem witness_HeldBytesAreNeverDisturbed : ∃ t, Sound (loaded [0x01, 0x07]) ∧
    exec (.rxpush 0x99) (loaded [0x01, 0x07]) = .next t ∧ InHalfOpen (loaded [0x01, 0x07]).rd (loaded [0x01, 0x07]).wr 1 :=
  ⟨_, loaded_sound, rfl, by decide⟩

theorem fullWindow_sound : Sound fullWindow := by
  refine ⟨le_refl _, le_of_eq fullWindow_level, rfl, ?_, ?_, ?_, rfl⟩ <;> decide

theorem witness_FullWindowNeedMeansReleasable : ∃ t, Sound fullWindow ∧
    posDist fullWindow.rd fullWindow.wr = Config.rxcap ∧ exec .fdetect fullWindow = .next t ∧ t.code = .need := by
  refine ⟨finish .need fullWindow, fullWindow_sound, fullWindow_level, ?_, rfl⟩
  have hd : decodeWin .w32 fullWindow.scan fullWindow = .need := by
    have h0 : posDist fullWindow.scan fullWindow.wr = 0 := posDist_self _
    unfold decodeWin varDecode
    rw [h0]
    rfl
  simp only [exec, execFdetect, detectFrame]
  rw [if_neg (by decide), if_pos fullWindow_sound.scan_in_window, hd]
  rfl

/-- A body of one byte pushed after reset. -/
theorem witness_FramerRoundTrip : Sound State.reset ∧ State.reset.ferr = .ok ∧ State.reset.scan = State.reset.wr ∧
    1 ≤ [(7 : Byte)].length ∧
    posDist State.reset.rd State.reset.wr + varLen .w32 [(7 : Byte)].length + [(7 : Byte)].length ≤ Config.rxcap :=
  ⟨sound_small _ (by decide) (by decide) (by decide), by decide, by decide, by decide, by decide⟩

/-- Two frames, pushed with an FDETECT after every byte. -/
theorem witness_PartialDeliveryFindsTheSameFrames : ∃ t, Sound State.reset ∧ State.reset.ferr = .ok ∧
    State.reset.scan = State.reset.wr ∧ (∀ b ∈ [[(7 : Byte)], [8, 9]], 1 ≤ b.length) ∧
    pushedBytes [.push 1, .detect, .push 7, .detect, .push 2, .push 8, .detect, .push 9, .detect] =
      wireFrames [[7], [8, 9]] ∧
    receive State.reset.scan
      ([.push 1, .detect, .push 7, .detect, .push 2, .push 8, .detect, .push 9, .detect] ++ [.detect]) State.reset =
      some (t, [(1, 1), (3, 2)]) ∧
    t.ferr = .ok ∧ t.code = .need :=
  ⟨_, sound_small _ (by decide) (by decide) (by decide), by decide, by decide, by decide, by decide, rfl, by decide,
    by decide⟩

/-- The least and the greatest read-only or reserved index beside the listed ones. -/
theorem witness_RegisterWritesStoreUnderFieldRules :
    (1 : RegIndex) ∉ [0x00, 0x34, 0x08, 0x0C, 0x10, 0x24, 0x28, 0x2C, 0x30, 0x3C].map wordIndex ∧
    (63 : RegIndex) ∉ [0x00, 0x34, 0x08, 0x0C, 0x10, 0x24, 0x28, 0x2C, 0x30, 0x3C].map wordIndex := by decide

theorem witness_RegisterReadsFollowTheMap : 0x5C ≤ 4 * (23 : RegIndex).toNat ∧ 0x5C ≤ 4 * (63 : RegIndex).toNat := by
  decide

theorem witness_ReadsChangeNothingAndRepeat : (issue (.read 1) (issue (.read 1) State.reset)).pending =
    .access (.read 1) :: .access (.read 1) :: [] := rfl

theorem witness_FailedCommandsChangeOnlyStatus : ∃ t, isCommand .fdetect = true ∧
    exec .fdetect (loaded [0x00]) = .next t ∧ t.code ≠ .ok ∧ t.ferr = .eframe :=
  ⟨_, rfl, rfl, by decide, by decide⟩

theorem witness_OnlyCommandsWriteCode : ∃ t, isCommand (.rxpush 5) = false ∧
    exec (.rxpush 5) (loaded [0x00]) = .next t := ⟨_, rfl, rfl⟩

theorem witness_FatalLatchIsSticky : ∃ t, ({ State.reset with ferr := .eframe } : State).ferr ≠ .ok ∧
    exec .frelease { State.reset with ferr := .eframe } = .next t ∧ Instr.frelease ≠ .sreset :=
  ⟨_, by decide, rfl, by decide⟩

/-- A prefix of 2^32 - 1 can never fit, whatever RXCAP is. -/
theorem longest_prefix_is_too_big : ends (exec .fdetect (loaded [0xFF, 0xFF, 0xFF, 0xFF, 0x0F]))
    (fun t => t.ferr == .etoobig && t.code == .etoobig) = true := by
  have h := rxcap_bounds
  have hd : decodeWin .w32 (loaded [0xFF, 0xFF, 0xFF, 0xFF, 0x0F]).scan (loaded [0xFF, 0xFF, 0xFF, 0xFF, 0x0F]) =
      .ok 4294967295 5 := by decide
  simp only [exec, execFdetect, detectFrame]
  rw [if_neg (by decide), if_pos (by decide), hd]
  simp only [judgeFrame]
  rw [if_neg (by decide), if_pos (by omega)]
  decide

/-- Each of the five events, the code it latches, and two commands that latch nothing. -/
theorem witness_ExactlyFiveEventsLatch : (loaded [0x00]).ferr = .ok ∧ fullWindow.ferr = .ok ∧
    ends (exec .fdetect (loaded [0x00])) (fun t => t.ferr == .eframe && t.code == .eframe) = true ∧
    ends (exec .fdetect (loaded [0x80, 0x80, 0x80, 0x80, 0x80]))
      (fun t => t.ferr == .evarint && t.code == .evarint) = true ∧
    ends (exec .fdetect (loaded [0xFF, 0xFF, 0xFF, 0xFF, 0x0F]))
      (fun t => t.ferr == .etoobig && t.code == .etoobig) = true ∧
    (posDist fullWindow.rd fullWindow.wr = Config.rxcap ∧ ∃ t, exec (.rxpush 5) fullWindow = .next t ∧ t.ferr = .eovf) ∧
    ends (exec .feos (loaded [0x00])) (fun t => t.ferr == .eeos && t.code == .eeos) = true ∧
    ends (exec .dec32w (loaded [0x80, 0x80, 0x80, 0x80, 0x80]))
      (fun t => t.ferr == .ok && t.code == .evarint) = true ∧
    ends (exec (.illegal 0) (loaded [])) (fun t => t.ferr == .ok && t.code == .eill) = true := by
  refine ⟨by decide, rfl, by decide, by decide, longest_prefix_is_too_big, ⟨fullWindow_level, _, rfl, ?_⟩, by decide,
    by decide, by decide⟩
  unfold pushByte
  rw [if_pos fullWindow_level]
  rfl

theorem witness_WindowRegistersHaveFewWriters : ∃ t, exec .fdetect (loaded [0x01, 0x07]) = .next t ∧
    Instr.fdetect ≠ .sreset ∧ t.scan = 2 ∧ t.fstart = 1 ∧ t.ptr = 1 := ⟨_, rfl, by decide, by decide, by decide, by decide⟩

theorem witness_OperandRegistersHaveFewWriters : ∃ t, exec (.regwr 9 0x02AC) State.reset = .next t ∧
    Instr.regwr 9 0x02AC ≠ .sreset ∧ t.in0 = 0x02AC := ⟨_, rfl, by decide, by decide⟩

end Sys2Proof.Tests
end

