-- ==== Sys2Proof/Proofs/Scope.lean ====
section
/-! PROOFS. Proofs/Scope.lean: what a step does with the host's next event (spec/00_scope.md R1; spec/20_memory.md R60,
R61), and that every instruction the decoder answers is a well-formed one (spec/30_encoding.md R72, R74). -/

namespace Sys2Proof

/-- R72, R74: a word that is no opcode decodes to ILLEGAL of itself, which is well-formed just because the word is not
legal; an opcode decodes to its command. -/
theorem wellFormed_decodeCommand (w : Word) : wellFormed (decodeCommand w) = true := by
  cases hw : legalCommand w with
  | false =>
    rw [(decodeCommand_illegal_iff w).2 hw]
    simp [wellFormed, hw]
  | true =>
    have hmem := (legalCommand_iff w).1 hw
    rw [decodeCommand_eq]
    split
    case h_14 => simp_all -- no opcode is left: against `hmem`
    all_goals rfl

/-- The decoder takes CMD, RXDATA and RXPEEK out first, so REGWR and REGRD are left with the indices that are
well-formed for them (R52). -/
theorem wellFormed_decode (p : PortAccess) : wellFormed (decode p) = true := by
  cases p with
  | read a =>
    by_cases ha : a = rxpeekIndex <;> simp [decode, ha, wellFormed]
  | write a wdata =>
    by_cases hcmd : a = cmdIndex
    · simpa [decode, hcmd] using wellFormed_decodeCommand wdata
    · by_cases hrx : a = rxdataIndex
      · simp [decode, hrx, wellFormed, cmdIndex, rxdataIndex]
      · simp [decode, hcmd, hrx, wellFormed]

end Sys2Proof

namespace Sys2Proof.Machine

open Sys2Proof

theorem step_of_pending_nil (s : State) (h : s.pending = []) : step s = .next s := by
  simp only [step, h]

theorem step_of_pending_reset (s : State) (rest : List HostEvent) (h : s.pending = .reset :: rest) :
    step s = .next (afterReset rest) := by
  simp only [step, h]

theorem step_of_pending_access (s : State) (p : PortAccess) (rest : List HostEvent)
    (h : s.pending = .access p :: rest) : step s = exec (decode p) (beginAccess rest s) := by
  simp only [step, h]

/-- Settles O4: the access decodes to a well-formed instruction, and the step runs it in the state `beginAccess` names. -/
theorem stepRunsTheDecodedInstruction : Obligations.StepRunsTheDecodedInstruction := by
  rintro s p rest i hpending rfl
  exact ⟨wellFormed_decode p, step_of_pending_access s p rest hpending⟩

/-- Settles O6, by the step's equation for a host with no event to come. -/
theorem nothingHappensWithoutTheHost : Obligations.NothingHappensWithoutTheHost :=
  step_of_pending_nil

end Sys2Proof.Machine
end

