-- ==== Sys2Proof/Proofs/State.lean ====
section
/-! PROOFS. Proofs/State.lean: what each instruction answers, who writes CODE and the window registers, what STATUS and
RXCAP read as, and that every step keeps the invariants of R34 (spec/10_state.md). -/

namespace Sys2Proof.Machine

open Sys2Proof

/-! ## What each instruction answers -/

@[simp] theorem exec_enc32 (s : State) : exec .enc32 s = .next (encodeOut .w32 (operand32 s) s) := rfl
@[simp] theorem exec_enc64 (s : State) : exec .enc64 s = .next (encodeOut .w64 (operand64 s) s) := rfl
@[simp] theorem exec_len32 (s : State) : exec .len32 s = .next (lengthOut .w32 (operand32 s) s) := rfl
@[simp] theorem exec_len64 (s : State) : exec .len64 s = .next (lengthOut .w64 (operand64 s) s) := rfl
@[simp] theorem exec_dec32r (s : State) : exec .dec32r s = .next (decWriteback .w32 (decodeIn .w32 s) s) := rfl
@[simp] theorem exec_dec64r (s : State) : exec .dec64r s = .next (decWriteback .w64 (decodeIn .w64 s) s) := rfl
@[simp] theorem exec_dec32w (s : State) : exec .dec32w s = .next (decodeAtPtr .w32 s) := rfl
@[simp] theorem exec_dec64w (s : State) : exec .dec64w s = .next (decodeAtPtr .w64 s) := rfl
@[simp] theorem exec_frelease (s : State) : exec .frelease s = .next (finish .ok (releaseScanned s)) := rfl
@[simp] theorem exec_sreset (s : State) : exec .sreset s = .next (softReset s) := rfl
@[simp] theorem exec_rxpush (wdata : Word) (s : State) :
    exec (.rxpush wdata) s = .next (pushByte Config.rxcap (wdata.extractLsb' 0 8) s) := rfl
@[simp] theorem exec_rxpeek (s : State) : exec .rxpeek s = .next (respond (peekWord s) s) := rfl
@[simp] theorem exec_regrd (a : RegIndex) (s : State) :
    exec (.regrd a) s = .next (respond (readReg Config.rxcap (regAt a) s) s) := rfl

/-- The two ends of FHDR (R132). -/
theorem fhdr_cases (s : State) :
    (operand32 s = 0 ∧ exec .fhdr s = .next (finish .eframe s)) ∨
      (operand32 s ≠ 0 ∧ exec .fhdr s = .next (encodeOut .w32 (operand32 s) s)) := by
  simp only [exec, execFhdr]
  by_cases h : operand32 s = 0
  · exact .inl ⟨h, if_pos h⟩
  · exact .inr ⟨h, if_neg h⟩

/-- An illegal command word answers EILL, or is no term of its row (R151). -/
theorem illegal_next (w : Word) (s t : State) (h : exec (.illegal w) s = .next t) : t = finish .eill s := by
  simp only [exec, execIllegal] at h
  split at h
  · cases h
  · injection h with h
    exact h.symm

/-- A register write that is a term of its row writes the register at its index (R152). -/
theorem regwr_next (a : RegIndex) (wdata : Word) (s t : State) (h : exec (.regwr a wdata) s = .next t) :
    t = writeReg (regAt a) wdata s := by
  simp only [exec, execRegwr] at h
  split at h
  · cases h
  · injection h with h
    exact h.symm

/-! ## STATUS.CODE -/

@[simp] theorem pushByte_code (cap : Nat) (b : Byte) (s : State) : (pushByte cap b s).code = s.code := by
  obtain ⟨-, hpush⟩ | ⟨-, hpush⟩ := pushByte_cases cap b s <;> simp [hpush]

@[simp] theorem writeReg_code (r : Option Reg) (wdata : Word) (s : State) : (writeReg r wdata s).code = s.code := by
  rw [writeReg_frame]

/-- Settles O44: the four port operations leave CODE alone (R14). -/
theorem onlyCommandsWriteCode : Obligations.OnlyCommandsWriteCode := by
  intro i s t hi h
  cases i with
  | rxpush wdata =>
    cases h
    exact pushByte_code ..
  | rxpeek =>
    cases h
    exact respond_code ..
  | regwr a wdata =>
    rw [regwr_next a wdata s t h]
    exact writeReg_code ..
  | regrd a =>
    cases h
    exact respond_code ..
  | _ => cases hi

/-! ## What STATUS and RXCAP read as -/

/-- Settles O12: RXCAP fits in a register, so reading it back loses nothing (R2, R38). -/
theorem rxcapReadsTheParameter : Obligations.RxcapReadsTheParameter := by
  obtain ⟨hmin, hmax⟩ := rxcap_bounds
  refine ⟨hmin, hmax, fun s => ⟨BitVec.ofNat 32 Config.rxcap, rfl, ?_⟩⟩
  rw [BitVec.toNat_ofNat, Nat.mod_eq_of_lt (by omega)]

/-- Fields that do not overlap add up: `a` has nothing below bit `n`, and `b` nothing from there on. -/
theorem toNat_or_of_disjoint {a b : Word} {x y : Nat} (n : Nat) (ha : a.toNat = x) (hb : b.toNat = y)
    (hx : 2 ^ n ∣ x) (hy : y < 2 ^ n) : (a ||| b).toNat = x + y := by
  obtain ⟨c, rfl⟩ := hx
  rw [BitVec.toNat_or, ha, hb, Nat.two_pow_add_eq_or_of_lt hy]

theorem flagWord_shift_toNat (b : Bool) (n : Nat) (hn : n < 32) : (flagWord b <<< n).toNat = b.toNat * 2 ^ n := by
  have hpow : 2 ^ n < 2 ^ 32 := Nat.pow_lt_pow_right (by omega) hn
  cases b with
  | false => simp [flagWord]
  | true => simpa [flagWord, Nat.shiftLeft_eq, Nat.mod_eq_iff_lt] using hpow

theorem codeBits_toNat_le (c : Code) : (codeBits c).toNat ≤ 8 := by
  cases c <;> decide

theorem codeBits_word_toNat (c : Code) : ((codeBits c).setWidth 32).toNat = (codeBits c).toNat := by
  cases c <;> rfl

theorem codeBits_shift_toNat (c : Code) : ((codeBits c).setWidth 32 <<< 8).toNat = (codeBits c).toNat * 2 ^ 8 := by
  cases c <;> rfl

/-- STATUS as the sum of its fields: no two of them overlap (R17). -/
theorem statusWord_toNat (cap : Nat) (s : State) :
    (statusWord cap s).toNat = (scanpend s).toNat * 2 ^ 18 + (rxfull cap s).toNat * 2 ^ 17 +
      (rxempty s).toNat * 2 ^ 16 + (codeBits s.ferr).toNat * 2 ^ 8 + (codeBits s.code).toNat := by
  have hpend := flagWord_shift_toNat (scanpend s) 18 (by omega)
  have hfull := flagWord_shift_toNat (rxfull cap s) 17 (by omega)
  have hempty := flagWord_shift_toNat (rxempty s) 16 (by omega)
  have hferr := codeBits_shift_toNat s.ferr
  have hcode := codeBits_word_toNat s.code
  have hfull1 := Bool.toNat_le (rxfull cap s)
  have hempty1 := Bool.toNat_le (rxempty s)
  have hferr8 := codeBits_toNat_le s.ferr
  have hcode8 := codeBits_toNat_le s.code
  have h18 := toNat_or_of_disjoint 18 hpend hfull (by omega) (by omega)
  have h17 := toNat_or_of_disjoint 17 h18 hempty (by omega) (by omega)
  have h16 := toNat_or_of_disjoint 16 h17 hferr (by omega) (by omega)
  exact toNat_or_of_disjoint 8 h16 hcode (by omega) (by omega)

/-- Settles O41: the word of STATUS as a sum, with each flag's bit read off its condition (R15, R17, R161). -/
theorem statusReadsCodesAndFlags : Obligations.StatusReadsCodesAndFlags := by
  intro s
  refine ⟨statusWord Config.rxcap s, rfl, ?_, by decide⟩
  have hpend : (scanpend s).toNat * 2 ^ 18 = if s.scan = s.wr then 0 else 2 ^ 18 := by
    by_cases h : s.scan = s.wr <;> simp [scanpend, h]
  have hfull : (rxfull Config.rxcap s).toNat * 2 ^ 17 = if posDist s.rd s.wr = Config.rxcap then 2 ^ 17 else 0 := by
    by_cases h : posDist s.rd s.wr = Config.rxcap <;> simp [rxfull, h]
  have hempty : (rxempty s).toNat * 2 ^ 16 = if s.wr = s.rd then 2 ^ 16 else 0 := by
    by_cases h : s.wr = s.rd <;> simp [rxempty, h]
  rw [statusWord_toNat, hpend, hfull, hempty]

/-! ## Who writes the window registers -/

/-- No window register differs, nor the storage (R26 to R29, R31, R32, R57). -/
structure SameWindow (s t : State) : Prop where
  rd : t.rd = s.rd
  scan : t.scan = s.scan
  wr : t.wr = s.wr
  fstart : t.fstart = s.fstart
  flen : t.flen = s.flen
  win : t.win = s.win
  ptr : t.ptr = s.ptr

theorem finish_sameWindow (c : Code) (s : State) : SameWindow s (finish c s) := by
  constructor <;> rfl

theorem latch_sameWindow (c : Code) (s : State) : SameWindow s (latch c s) := by
  constructor <;> simp

theorem respond_sameWindow (v : Word) (s : State) : SameWindow s (respond v s) := by
  constructor <;> rfl

theorem encodeOut_sameWindow (w : Width) (v : Nat) (s : State) : SameWindow s (encodeOut w v s) := by
  constructor <;> rfl

theorem lengthOut_sameWindow (w : Width) (v : Nat) (s : State) : SameWindow s (lengthOut w v s) := by
  constructor <;> rfl

theorem decWriteback_sameWindow (w : Width) (r : Decoded) (s : State) : SameWindow s (decWriteback w r s) := by
  cases r <;> constructor <;> rfl

theorem fhdr_sameWindow (s t : State) (h : exec .fhdr s = .next t) : SameWindow s t := by
  obtain ⟨-, hx⟩ | ⟨-, hx⟩ := fhdr_cases s <;> cases hx.symm.trans h
  · exact finish_sameWindow ..
  · exact encodeOut_sameWindow ..

theorem feos_sameWindow (s t : State) (h : exec .feos s = .next t) : SameWindow s t := by
  obtain ⟨-, hx⟩ | ⟨-, -, hx⟩ | ⟨-, -, hx⟩ := feos_cases s <;> cases hx.symm.trans h <;> constructor <;> rfl

/-- A decode at PTR that ends in OK moves PTR; any other touches nothing of the window (R112, R113). -/
theorem decodeAtPtr_window (w : Width) (s : State) :
    SameWindow s (decodeAtPtr w s) ∨
      (decodeAtPtr w s).code = .ok ∧ ∃ p, SameWindow (setPtr p s) (decodeAtPtr w s) := by
  obtain ⟨v, k, -, -, hd⟩ | ⟨-, -, hd⟩ | ⟨-, -, hd⟩ | ⟨-, hd⟩ := decodeAtPtr_cases w s <;> rw [hd]
  · exact .inr ⟨rfl, advance s.ptr k, by constructor <;> rfl⟩
  all_goals exact .inl (by constructor <;> rfl)

/-- An FDETECT that finds a frame writes it down; any other touches nothing of the window (R130). -/
theorem fdetect_window (s t : State) (h : exec .fdetect s = .next t) :
    SameWindow s t ∨ ∃ k len, t = finish .ok (foundFrame k len s) := by
  obtain ⟨-, rfl⟩ | ⟨hferr, -, rfl⟩ := fdetect_cases s t h
  · exact .inl (by constructor <;> rfl)
  obtain ⟨-, hj⟩ | ⟨-, hj⟩ | ⟨-, -, hj⟩ | ⟨-, -, -, -, -, hj⟩ | ⟨-, -, -, -, -, -, hj⟩ | ⟨len, k, -, -, -, -, hj⟩ :=
    judgeFrame_cases Config.rxcap (decodeWin .w32 s.scan s) s hferr
  case inr.inr.inr.inr.inr => exact .inr ⟨k, len, hj⟩
  all_goals
    rw [hj]
    exact .inl (by constructor <;> rfl)

theorem pushByte_window (cap : Nat) (b : Byte) (s : State) :
    SameWindow s (pushByte cap b s) ∨ pushByte cap b s = storeByte b s := by
  obtain ⟨-, hpush⟩ | ⟨-, hpush⟩ := pushByte_cases cap b s
  · exact .inl (hpush ▸ latch_sameWindow ..)
  · exact .inr hpush

/-- PTR stands at offset 0x3C alone (R12). -/
theorem regAt_eq_ptr (a : RegIndex) (h : regAt a = some .ptr) : a = wordIndex 0x3C := by
  revert a
  decide

theorem writeReg_window (r : Option Reg) (wdata : Word) (s : State) :
    SameWindow s (writeReg r wdata s) ∨ r = some .ptr ∧ writeReg r wdata s = setPtr wdata s := by
  by_cases h : r = some .ptr
  · exact .inr ⟨h, by rw [h]; rfl⟩
  · refine .inl ?_
    rcases r with _ | r
    · constructor <;> rfl
    cases r
    case ptr => exact absurd rfl h
    all_goals constructor <;> rfl

/-- All that an instruction other than SRESET can do to the window registers and to the storage (R26 to R29, R31, R32,
R59). -/
theorem window_effect (i : Instr) (s t : State) (h : exec i s = .next t) (hi : i ≠ .sreset) :
    SameWindow s t ∨
    (i = .frelease ∧ t = finish .ok (releaseScanned s)) ∨
    (i = .fdetect ∧ ∃ k len, t = finish .ok (foundFrame k len s)) ∨
    (∃ wdata b, i = .rxpush wdata ∧ t = storeByte b s) ∨
    ((i = .dec32w ∨ i = .dec64w) ∧ t.code = .ok ∧ ∃ p, SameWindow (setPtr p s) t) ∨
    (∃ wdata, i = .regwr (wordIndex 0x3C) wdata ∧ t = setPtr wdata s) := by
  cases i with
  | enc32 | enc64 =>
    cases h
    exact .inl (encodeOut_sameWindow ..)
  | len32 | len64 =>
    cases h
    exact .inl (lengthOut_sameWindow ..)
  | dec32r | dec64r =>
    cases h
    exact .inl (decWriteback_sameWindow ..)
  | dec32w | dec64w =>
    cases h
    obtain hsame | hmoved := decodeAtPtr_window _ s
    · exact .inl hsame
    · exact .inr (.inr (.inr (.inr (.inl ⟨by simp, hmoved⟩))))
  | fdetect =>
    obtain hsame | hfound := fdetect_window s t h
    · exact .inl hsame
    · exact .inr (.inr (.inl ⟨rfl, hfound⟩))
  | frelease =>
    cases h
    exact .inr (.inl ⟨rfl, rfl⟩)
  | fhdr => exact .inl (fhdr_sameWindow s t h)
  | feos => exact .inl (feos_sameWindow s t h)
  | sreset => exact absurd rfl hi
  | illegal w =>
    rw [illegal_next w s t h]
    exact .inl (finish_sameWindow ..)
  | rxpush wdata =>
    cases h
    obtain hsame | hstored := pushByte_window Config.rxcap (wdata.extractLsb' 0 8) s
    · exact .inl hsame
    · exact .inr (.inr (.inr (.inl ⟨wdata, _, rfl, hstored⟩)))
  | rxpeek | regrd =>
    cases h
    exact .inl (respond_sameWindow ..)
  | regwr a wdata =>
    rw [regwr_next a wdata s t h]
    obtain hsame | ⟨hptr, hmoved⟩ := writeReg_window (regAt a) wdata s
    · exact .inl hsame
    · exact .inr (.inr (.inr (.inr (.inr ⟨wdata, by rw [regAt_eq_ptr a hptr], hmoved⟩))))

/-- Settles O47, by what each of the six effects leaves alone. -/
theorem windowRegistersHaveFewWriters : Obligations.WindowRegistersHaveFewWriters := by
  intro i s t h hi
  obtain hsame | ⟨rfl, rfl⟩ | ⟨rfl, k, len, rfl⟩ | ⟨wdata, b, rfl, rfl⟩ | ⟨hdec, hok, p, hsame⟩ | ⟨wdata, rfl, rfl⟩ :=
    window_effect i s t h hi
  · simp [hsame.rd, hsame.scan, hsame.fstart, hsame.flen, hsame.wr, hsame.win, hsame.ptr]
  · simp
  · simp
  · simp
  · simp [hsame.rd, hsame.scan, hsame.fstart, hsame.flen, hsame.wr, hsame.win, hok, hdec]
  · simp

/-! ## The invariants -/

/-- A position of the window cuts it into two stretches (R5). -/
theorem posDist_add_of_inClosed (a b p : Position) (h : InClosed a b p) :
    posDist a p + posDist p b = posDist a b := by
  unfold InClosed posDist at *
  bv_omega

theorem inClosed_advance (a b p : Position) (n : Nat) (h : InClosed a b p) (hn : n ≤ posDist p b) :
    InClosed a b (advance p n) := by
  unfold InClosed posDist advance at *
  bv_omega

theorem posDist_advance_right (a b : Position) (n : Nat) (h : posDist a b + n < 2 ^ 32) :
    posDist a (advance b n) = posDist a b + n := by
  unfold posDist advance at *
  bv_omega

theorem finish_sound (c : Code) (s : State) (hs : Sound s) : Sound (finish c s) := { hs with }

theorem latch_sound (c : Code) (s : State) (hc : latchable c = true) (hs : Sound s) : Sound (latch c s) := by
  obtain ⟨-, hl⟩ | ⟨-, hl⟩ := latch_cases c s <;> rw [hl]
  · exact { hs with ferr_latchable := hc }
  · exact hs

theorem failStream_sound (c : Code) (s : State) (hc : latchable c = true) (hs : Sound s) : Sound (failStream c s) :=
  finish_sound _ _ (latch_sound c s hc hs)

theorem respond_sound (v : Word) (s : State) (hs : Sound s) : Sound (respond v s) := { hs with }

theorem beginAccess_sound (rest : List HostEvent) (s : State) (hs : Sound s) : Sound (beginAccess rest s) := { hs with }

theorem encodeOut_sound (w : Width) (v : Nat) (s : State) (hs : Sound s) : Sound (encodeOut w v s) :=
  { hs with out2_high := putOut_high _ s }

theorem lengthOut_sound (w : Width) (v : Nat) (s : State) (hs : Sound s) : Sound (lengthOut w v s) := { hs with }

theorem decWriteback_sound (w : Width) (r : Decoded) (s : State) (hs : Sound s) : Sound (decWriteback w r s) := by
  cases r <;> exact { hs with }

theorem advancePtr_sound (r : Decoded) (s : State) (hs : Sound s) : Sound (advancePtr r s) := by
  cases r <;> exact { hs with }

theorem decodeAtPtr_sound (w : Width) (s : State) (hs : Sound s) : Sound (decodeAtPtr w s) := by
  unfold decodeAtPtr
  split
  · exact advancePtr_sound _ _ (decWriteback_sound _ _ _ hs)
  · exact finish_sound _ _ hs

/-- FRELEASE drops the scanned bytes, so the level falls to what SCAN had before it (R131). -/
theorem releaseScanned_sound (s : State) (hs : Sound s) : Sound (releaseScanned s) :=
  have hsum := posDist_add_of_inClosed _ _ _ hs.scan_in_window
  { hs with
    scan_in_window := by simp [InClosed]
    level_le_rxcap := le_trans (by simp only [releaseScanned_rd, releaseScanned_wr]; omega) hs.level_le_rxcap }

/-- A frame that ends at WR or before leaves SCAN in the window (R130). -/
theorem foundFrame_sound (k len : Nat) (s : State) (hfits : k + len ≤ posDist s.scan s.wr) (hs : Sound s) :
    Sound (foundFrame k len s) :=
  { hs with scan_in_window := inClosed_advance _ _ _ _ hs.scan_in_window hfits }

theorem judgeFrame_sound (r : Decoded) (s : State) (hferr : s.ferr = .ok) (hs : Sound s) :
    Sound (judgeFrame Config.rxcap r s) := by
  obtain ⟨-, hj⟩ | ⟨-, hj⟩ | ⟨-, -, hj⟩ | ⟨-, -, -, -, -, hj⟩ | ⟨-, -, -, -, -, -, hj⟩ | ⟨len, k, -, -, -, hfits, hj⟩ :=
    judgeFrame_cases Config.rxcap r s hferr <;> rw [hj]
  case inr.inr.inr.inr.inr => exact finish_sound _ _ (foundFrame_sound k len s hfits hs)
  all_goals exact { hs with ferr_latchable := by simp [latchable, hferr] }

theorem fdetect_sound (s t : State) (h : exec .fdetect s = .next t) (hs : Sound s) : Sound t := by
  obtain ⟨-, rfl⟩ | ⟨hferr, -, rfl⟩ := fdetect_cases s t h
  · exact { hs with }
  · exact judgeFrame_sound _ s hferr hs

theorem fhdr_sound (s t : State) (h : exec .fhdr s = .next t) (hs : Sound s) : Sound t := by
  obtain ⟨-, hx⟩ | ⟨-, hx⟩ := fhdr_cases s <;> cases hx.symm.trans h
  · exact finish_sound _ _ hs
  · exact encodeOut_sound _ _ _ hs

theorem feos_sound (s t : State) (h : exec .feos s = .next t) (hs : Sound s) : Sound t := by
  obtain ⟨-, hx⟩ | ⟨-, -, hx⟩ | ⟨-, -, hx⟩ := feos_cases s <;> cases hx.symm.trans h
  · exact { hs with }
  · exact { hs with ferr_latchable := rfl }
  · exact { hs with }

/-- A stored byte raises the level by one, and RXCAP is too small for the level to wrap (R2, R140). -/
theorem storeByte_sound (b : Byte) (s : State) (hroom : posDist s.rd s.wr ≠ Config.rxcap) (hs : Sound s) :
    Sound (storeByte b s) := by
  have hcap := rxcap_bounds
  have hlevel := hs.level_le_rxcap
  have hscan := hs.scan_in_window
  have hwr : posDist s.rd (advance s.wr 1) = posDist s.rd s.wr + 1 := posDist_advance_right _ _ _ (by omega)
  exact { hs with
    scan_in_window := by simp only [InClosed, storeByte_rd, storeByte_scan, storeByte_wr] at hscan ⊢; omega
    level_le_rxcap := by simp only [storeByte_rd, storeByte_wr]; omega
    win_wf := storeByte_wf b s hs.win_wf }

theorem pushByte_sound (b : Byte) (s : State) (hs : Sound s) : Sound (pushByte Config.rxcap b s) := by
  obtain ⟨-, hpush⟩ | ⟨hroom, hpush⟩ := pushByte_cases Config.rxcap b s <;> rw [hpush]
  · exact latch_sound _ _ rfl hs
  · exact storeByte_sound b s hroom hs

theorem softReset_sound (s : State) (hs : Sound s) : Sound (softReset s) :=
  { hs with
    scan_in_window := by simp [InClosed]
    level_le_rxcap := by simp
    ferr_latchable := rfl
    inlen_le := by simp
    out2_high := by simp }

/-- The field rules of CTRL and INLEN keep their invariants; no other RW register has one (R13, R23, R152). -/
theorem writeReg_sound (r : Option Reg) (wdata : Word) (s : State) (hs : Sound s) : Sound (writeReg r wdata s) := by
  rcases r with _ | r
  · exact hs
  cases r
  case ctrl =>
    have hreserved : ((wdata.extractLsb' 0 2).setWidth 32).extractLsb' 2 30 = 0 := by
      ext i hi
      simp
    exact { hs with ctrl_reserved := hreserved }
  case inlen =>
    have hclamp : (if wdata.toNat ≤ 12 then wdata else 12).toNat ≤ 12 := by
      split
      · assumption
      · decide
    exact { hs with inlen_le := hclamp }
  all_goals exact { hs with }

/-- Every instruction that answers a state keeps R34's invariants. -/
theorem exec_sound (i : Instr) (s t : State) (hs : Sound s) (h : exec i s = .next t) : Sound t := by
  cases i with
  | enc32 | enc64 =>
    cases h
    exact encodeOut_sound _ _ _ hs
  | len32 | len64 =>
    cases h
    exact lengthOut_sound _ _ _ hs
  | dec32r | dec64r =>
    cases h
    exact decWriteback_sound _ _ _ hs
  | dec32w | dec64w =>
    cases h
    exact decodeAtPtr_sound _ _ hs
  | fdetect => exact fdetect_sound s t h hs
  | frelease =>
    cases h
    exact finish_sound _ _ (releaseScanned_sound s hs)
  | fhdr => exact fhdr_sound s t h hs
  | feos => exact feos_sound s t h hs
  | sreset =>
    cases h
    exact softReset_sound s hs
  | illegal w =>
    rw [illegal_next w s t h]
    exact finish_sound _ _ hs
  | rxpush wdata =>
    cases h
    exact pushByte_sound _ _ hs
  | rxpeek | regrd =>
    cases h
    exact respond_sound _ _ hs
  | regwr a wdata =>
    rw [regwr_next a wdata s t h]
    exact writeReg_sound _ _ _ hs

/-- Settles O8: after reset the window is empty and every register is 0. -/
theorem resetStateIsSound : Obligations.ResetStateIsSound where
  scan_in_window := by decide
  level_le_rxcap := Nat.zero_le _
  ferr_latchable := rfl
  inlen_le := by decide
  out2_high := by decide
  ctrl_reserved := by decide
  win_wf := reset_win_wf

/-- The reset event leads to a sound state whatever the host does next (R180). -/
theorem afterReset_sound (rest : List HostEvent) : Sound (afterReset rest) := { resetStateIsSound with }

/-- Settles O9: a step takes no event, the reset event, or an access, which runs an instruction. -/
theorem everyStepKeepsSoundness : Obligations.EveryStepKeepsSoundness := by
  intro s t hs h
  cases hpending : s.pending with
  | nil =>
    rw [step_of_pending_nil s hpending] at h
    cases h
    exact hs
  | cons e rest =>
    cases e with
    | reset =>
      rw [step_of_pending_reset s rest hpending] at h
      cases h
      exact afterReset_sound rest
    | access p =>
      rw [step_of_pending_access s p rest hpending] at h
      exact exec_sound (decode p) _ t (beginAccess_sound rest s hs) h

end Sys2Proof.Machine
end

/-! PROOFS. Proofs/Memory.lean: the byte lanes of the registers, reads, the held bytes and who may read them, where FDETECT
stops, and that every host program runs to its end (spec/20_memory.md). -/

namespace Sys2Proof.Machine

open Sys2Proof

/-! ## Byte lanes -/

theorem getLsbD_lane (r : Word) (j b : Nat) (hb : b < 8) : (lane r j).getLsbD b = r.getLsbD (8 * j + b) := by
  simp [lane, hb]

/-- A byte index of three registers is in the first, the second or the third (R53). -/
theorem div_four_cases (j : Nat) (hj : j < 12) : j / 4 = 0 ∨ j / 4 = 1 ∨ j / 4 = 2 := by
  omega

theorem inByte_eq_lane (s : State) (j : Nat) (hj : j < 12) :
    inByte s j = lane ([s.in0, s.in1, s.in2].getD (j / 4) 0) (j % 4) := by
  obtain h | h | h := div_four_cases j hj <;> simp [inByte, h]

theorem outByte_eq_lane (s : State) (j : Nat) (hj : j < 12) :
    outByte s j = lane ([s.out0, s.out1, s.out2].getD (j / 4) 0) (j % 4) := by
  obtain h | h | h := div_four_cases j hj <;> simp [outByte, h]

/-- Settles O18: an input or output byte is a lane of its register, and a lane is eight bits of it. -/
theorem byteLanesAreLittleEndian : Obligations.ByteLanesAreLittleEndian := by
  intro s j b hj hb
  rw [inByte_eq_lane s j hj, outByte_eq_lane s j hj]
  exact ⟨getLsbD_lane _ _ _ hb, getLsbD_lane _ _ _ hb⟩

/-! ## Reads -/

/-- REGRD and RXPEEK are one rule: a read answers the register at its index (R52). -/
theorem exec_decode_read (a : RegIndex) (s : State) :
    exec (decode (.read a)) s = .next (respond (readReg Config.rxcap (regAt a) s) s) := by
  by_cases ha : a = rxpeekIndex
  · subst ha
    rfl
  · simp [decode, ha]

/-- No register shows the host's side of the port. -/
theorem readReg_port (cap : Nat) (r : Option Reg) (s : State) (events : List HostEvent) (answer : Option Word) :
    readReg cap r { s with pending := events, resp := answer } = readReg cap r s := by
  rcases r with _ | r
  · rfl
  · cases r <;> rfl

theorem step_of_pending_read (s : State) (a : RegIndex) (rest : List HostEvent)
    (h : s.pending = .access (.read a) :: rest) :
    step s = .next { s with pending := rest, resp := some (readReg Config.rxcap (regAt a) s) } := by
  rw [step_of_pending_access s _ rest h, exec_decode_read, beginAccess, readReg_port]
  rfl

/-- Settles O42: a read writes the port's answer alone, and no register depends on the answer. -/
theorem readsChangeNothingAndRepeat : Obligations.ReadsChangeNothingAndRepeat := by
  intro s a rest h
  refine ⟨readReg Config.rxcap (regAt a) s, step_of_pending_read s a _ h, ?_⟩
  have hagain := readReg_port Config.rxcap (regAt a) s (.access (.read a) :: rest)
    (some (readReg Config.rxcap (regAt a) s))
  rw [step_of_pending_read _ a rest rfl, hagain]

/-! ## Held positions -/

/-- A position short of the end of the window, counted from one in it, is held (R5, R56). -/
theorem inHalfOpen_advance (a b p : Position) (n : Nat) (h : InClosed a b p) (hn : n < posDist p b) :
    InHalfOpen a b (advance p n) := by
  have hsum := posDist_add_of_inClosed a b p h
  have hlt := posDist_lt a b
  have hn' := posDist_advance_right a p n (by omega)
  unfold InHalfOpen
  omega

/-- A decode at PTR that ends in OK passed between 1 and `G_W` positions, all of them held (R66, R111). -/
theorem decodeAtPtr_reads_held (w : Width) (s : State) (hok : (decodeAtPtr w s).code = .ok) :
    InClosed s.rd s.wr (decodeAtPtr w s).ptr ∧ 1 ≤ posDist s.ptr (decodeAtPtr w s).ptr ∧
      posDist s.ptr (decodeAtPtr w s).ptr ≤ maxGroups w ∧
      ∀ i, i < posDist s.ptr (decodeAtPtr w s).ptr → InHalfOpen s.rd s.wr (advance s.ptr i) := by
  obtain ⟨v, k, hin, hdec, hd⟩ | ⟨-, -, hd⟩ | ⟨-, -, hd⟩ | ⟨-, hd⟩ := decodeAtPtr_cases w s <;> rw [hd] at hok ⊢
  · obtain ⟨hpos, hgroups, havail, -⟩ := varDecode_ok _ _ _ _ _ _ _ hdec
    have hlt := posDist_lt s.ptr s.wr
    rw [posDist_advance s.ptr k (by omega)]
    exact ⟨inClosed_advance _ _ _ _ hin havail, hpos, hgroups,
      fun i hi => inHalfOpen_advance _ _ _ _ hin (by omega)⟩
  all_goals cases hok

/-- Settles O24, at the two widths. -/
theorem windowDecodeReadsOnlyHeldBytes : Obligations.WindowDecodeReadsOnlyHeldBytes := by
  intro s t hok
  refine ⟨fun h => ?_, fun h => ?_⟩ <;> cases h <;> exact decodeAtPtr_reads_held _ s hok

/-- A held position is not where the next byte goes (R59). -/
theorem ne_wr_of_held (s : State) (p : Position) (hp : InHalfOpen s.rd s.wr p) : p ≠ s.wr := by
  rintro rfl
  exact lt_irrefl _ hp

/-- Storing a byte leaves the held bytes, and the level is too low for WR to come round to RD (R2, R59). -/
theorem storeByte_keeps_held (b : Byte) (s : State) (p : Position) (hs : Sound s) (hp : InHalfOpen s.rd s.wr p) :
    winRead (storeByte b s) p = winRead s p ∧ InHalfOpen (storeByte b s).rd (storeByte b s).wr p := by
  have hcap := rxcap_bounds
  have hlevel := hs.level_le_rxcap
  have hwr := posDist_advance_right s.rd s.wr 1 (by omega)
  refine ⟨by rw [winRead_storeByte b s p hs.win_wf, if_neg (ne_wr_of_held s p hp)], ?_⟩
  simp only [InHalfOpen, storeByte_rd, storeByte_wr] at hp ⊢
  omega

/-- SRESET and FRELEASE end a byte's being held, not the byte (R150, R131); of the rest only RXPUSH writes WR or the
storage. -/
theorem exec_keeps_held (i : Instr) (s t : State) (p : Position) (hs : Sound s) (h : exec i s = .next t)
    (hp : InHalfOpen s.rd s.wr p) :
    winRead t p = winRead s p ∧ (i ≠ .frelease → i ≠ .sreset → InHalfOpen t.rd t.wr p) := by
  by_cases hi : i = .sreset
  · subst hi
    cases h
    exact ⟨rfl, fun _ hne => absurd rfl hne⟩
  obtain hsame | ⟨rfl, rfl⟩ | ⟨-, k, len, rfl⟩ | ⟨wdata, b, -, rfl⟩ | ⟨-, -, q, hsame⟩ | ⟨wdata, -, rfl⟩ :=
    window_effect i s t h hi
  · exact ⟨winRead_congr s t hsame.win p, fun _ _ => by rwa [hsame.rd, hsame.wr]⟩
  · exact ⟨rfl, fun hne _ => absurd rfl hne⟩
  · exact ⟨rfl, fun _ _ => hp⟩
  · obtain ⟨hread, hheld⟩ := storeByte_keeps_held b s p hs hp
    exact ⟨hread, fun _ _ => hheld⟩
  · exact ⟨winRead_congr s t hsame.win p, fun _ _ => by rwa [hsame.rd, hsame.wr]⟩
  · exact ⟨rfl, fun _ _ => hp⟩

/-- Settles O34, by the effects an instruction can have on the window. -/
theorem heldBytesAreNeverDisturbed : Obligations.HeldBytesAreNeverDisturbed :=
  exec_keeps_held

/-! ## Where FDETECT stops -/

theorem exec_fdetect_of_latched (s : State) (hf : s.ferr ≠ .ok) : exec .fdetect s = .next (finish s.ferr s) :=
  if_pos hf

theorem exec_fdetect_of_scan_in_window (s : State) (hf : s.ferr = .ok) (hin : InClosed s.rd s.wr s.scan) :
    exec .fdetect s = .next (judgeFrame Config.rxcap (decodeWin .w32 s.scan s) s) := by
  simp only [exec, execFdetect, detectFrame]
  rw [if_neg (not_not.2 hf), if_pos hin]

theorem exec_fdetect_of_scan_outside (s : State) (hf : s.ferr = .ok) (hout : ¬ InClosed s.rd s.wr s.scan) :
    exec .fdetect s = .fault .undefinedWinRead := by
  simp only [exec, execFdetect, detectFrame]
  rw [if_neg (not_not.2 hf), if_neg hout]

/-- Settles O27: a latched error is repeated, and without one it is SCAN that decides. -/
theorem fdetectStopsOnlyOnUndefinedReads : Obligations.FdetectStopsOnlyOnUndefinedReads := by
  intro s
  by_cases hf : s.ferr = .ok
  · by_cases hin : InClosed s.rd s.wr s.scan
    · simp [exec_fdetect_of_scan_in_window s hf hin, hin]
    · simp [exec_fdetect_of_scan_outside s hf hin, hf, hin]
  · simp [exec_fdetect_of_latched s hf, hf]

/-! ## What the window commands read -/

/-- A decode of the window looks at no byte of the storage but the held ones of its reach (R66, R102). -/
theorem decodeWin_congr_win (w : Width) (p : Position) (s : State) (m : Memory) (hin : InClosed s.rd s.wr p)
    (hm : AgreeOnHeld s m p (maxGroups w)) : decodeWin w p { s with win := m } = decodeWin w p s :=
  varDecode_congr w _ _ _ _ _ fun j havail hgroups => hm j hgroups (inHalfOpen_advance _ _ _ _ hin havail)

theorem failStream_win (c : Code) (s : State) (m : Memory) :
    failStream c { s with win := m } = { failStream c s with win := m } := by
  unfold failStream latch
  split <;> rfl

/-- Once it has decoded the length, FDETECT does not look at the storage again, nor write it (R130). -/
theorem judgeFrame_win (cap : Nat) (r : Decoded) (s : State) (m : Memory) :
    judgeFrame cap r { s with win := m } = { judgeFrame cap r s with win := m } := by
  cases r with
  | need => rfl
  | invalid => exact failStream_win ..
  | ok len k =>
    simp only [judgeFrame, failStream_win]
    split_ifs <;> rfl

theorem decodeAtPtr_win (w : Width) (s : State) (m : Memory) (hm : AgreeOnHeld s m s.ptr (maxGroups w)) :
    decodeAtPtr w { s with win := m } = { decodeAtPtr w s with win := m } := by
  unfold decodeAtPtr
  by_cases hin : InClosed s.rd s.wr s.ptr
  · rw [if_pos hin, if_pos hin, decodeWin_congr_win w s.ptr s m hin hm]
    cases decodeWin w s.ptr s <;> rfl
  · rw [if_neg hin, if_neg hin]
    rfl

theorem fdetect_win (s t : State) (m : Memory) (hm : AgreeOnHeld s m s.scan 5) (h : exec .fdetect s = .next t) :
    exec .fdetect { s with win := m } = .next { t with win := m } := by
  obtain ⟨hf, rfl⟩ | ⟨hf, hin, rfl⟩ := fdetect_cases s t h
  · exact exec_fdetect_of_latched { s with win := m } hf
  · rw [exec_fdetect_of_scan_in_window { s with win := m } hf hin, decodeWin_congr_win .w32 s.scan s m hin hm,
      judgeFrame_win]

theorem peekWord_win (s : State) (m : Memory) (hm : AgreeOnHeld s m s.ptr 1) :
    peekWord { s with win := m } = peekWord s := by
  unfold peekWord
  by_cases hin : InHalfOpen s.rd s.wr s.ptr
  · have hbyte : winRead { s with win := m } s.ptr = winRead s s.ptr := by
      simpa [winRead, hin] using hm 0 one_pos
    rw [if_pos hin, if_pos hin, hbyte]
  · rw [if_neg hin, if_neg hin]

/-- Settles O49, one command after the other. -/
theorem windowCommandsReadOnlyTheirBytes : Obligations.WindowCommandsReadOnlyTheirBytes := by
  refine fun s t m => ⟨fun hm h => ?_, fun hm h => ?_, fdetect_win s t m, fun hm h => ?_⟩
  · cases h
    rw [exec_dec32w, decodeAtPtr_win .w32 s m hm]
  · cases h
    rw [exec_dec64w, decodeAtPtr_win .w64 s m hm]
  · cases h
    rw [exec_rxpeek, peekWord_win s m hm]
    rfl

/-! ## Host programs -/

theorem exec_illegal_of_wellFormed (w : Word) (s : State) (hi : wellFormed (.illegal w) = true) :
    exec (.illegal w) s = .next (finish .eill s) := by
  have hw : legalCommand w ≠ true := by simpa [wellFormed] using hi
  exact if_neg hw

theorem exec_regwr_of_wellFormed (a : RegIndex) (wdata : Word) (s : State) (hi : wellFormed (.regwr a wdata) = true) :
    exec (.regwr a wdata) s = .next (writeReg (regAt a) wdata s) := by
  have ha : ¬ (a = cmdIndex ∨ a = rxdataIndex) := by simpa [wellFormed] using hi
  exact if_neg ha

/-- From a sound state every instruction a transaction stands for completes (R160). -/
theorem exec_answers (i : Instr) (s : State) (hi : wellFormed i = true) (hs : Sound s) :
    ∃ t, exec i s = .next t := by
  cases i with
  | fdetect => exact (fdetectStopsOnlyOnUndefinedReads s).2.2 fun _ => hs.scan_in_window
  | fhdr => obtain ⟨-, hx⟩ | ⟨-, hx⟩ := fhdr_cases s <;> exact ⟨_, hx⟩
  | feos => obtain ⟨-, hx⟩ | ⟨-, -, hx⟩ | ⟨-, -, hx⟩ := feos_cases s <;> exact ⟨_, hx⟩
  | illegal w => exact ⟨_, exec_illegal_of_wellFormed w s hi⟩
  | regwr a wdata => exact ⟨_, exec_regwr_of_wellFormed a wdata s hi⟩
  | _ => exact ⟨_, rfl⟩

@[simp] theorem encodeOut_pending (w : Width) (v : Nat) (s : State) : (encodeOut w v s).pending = s.pending := rfl

@[simp] theorem lengthOut_pending (w : Width) (v : Nat) (s : State) : (lengthOut w v s).pending = s.pending := rfl

@[simp] theorem decWriteback_pending (w : Width) (r : Decoded) (s : State) :
    (decWriteback w r s).pending = s.pending := by
  cases r <;> rfl

@[simp] theorem advancePtr_pending (r : Decoded) (s : State) : (advancePtr r s).pending = s.pending := by
  cases r <;> rfl

@[simp] theorem decodeAtPtr_pending (w : Width) (s : State) : (decodeAtPtr w s).pending = s.pending := by
  unfold decodeAtPtr
  split <;> simp

@[simp] theorem pushByte_pending (cap : Nat) (b : Byte) (s : State) : (pushByte cap b s).pending = s.pending := by
  obtain ⟨-, hpush⟩ | ⟨-, hpush⟩ := pushByte_cases cap b s <;> simp [hpush]

@[simp] theorem writeReg_pending (r : Option Reg) (wdata : Word) (s : State) :
    (writeReg r wdata s).pending = s.pending := by
  rw [writeReg_frame]

@[simp] theorem failStream_pending (c : Code) (s : State) : (failStream c s).pending = s.pending := by
  simp [failStream]

@[simp] theorem judgeFrame_pending (cap : Nat) (r : Decoded) (s : State) :
    (judgeFrame cap r s).pending = s.pending := by
  cases r with
  | need => rfl
  | invalid => exact failStream_pending ..
  | ok len k =>
    simp only [judgeFrame]
    split_ifs <;> simp

/-- No instruction reads ahead in the port order, nor changes it (R61). -/
theorem exec_pending (i : Instr) (s t : State) (h : exec i s = .next t) : t.pending = s.pending := by
  cases i with
  | enc32 | enc64 =>
    cases h
    exact encodeOut_pending ..
  | len32 | len64 =>
    cases h
    exact lengthOut_pending ..
  | dec32r | dec64r =>
    cases h
    exact decWriteback_pending ..
  | dec32w | dec64w =>
    cases h
    exact decodeAtPtr_pending ..
  | fdetect =>
    obtain ⟨-, rfl⟩ | ⟨-, -, rfl⟩ := fdetect_cases s t h
    · rfl
    · exact judgeFrame_pending ..
  | frelease | sreset =>
    cases h
    rfl
  | fhdr => obtain ⟨-, hx⟩ | ⟨-, hx⟩ := fhdr_cases s <;> cases hx.symm.trans h <;> rfl
  | feos => obtain ⟨-, hx⟩ | ⟨-, -, hx⟩ | ⟨-, -, hx⟩ := feos_cases s <;> cases hx.symm.trans h <;> rfl
  | illegal w => rw [illegal_next w s t h, finish_pending]
  | rxpush wdata =>
    cases h
    exact pushByte_pending ..
  | rxpeek | regrd =>
    cases h
    exact respond_pending ..
  | regwr a wdata => rw [regwr_next a wdata s t h, writeReg_pending]

/-- From a sound state the host's next event takes effect, and the later ones are left (R1, R60). -/
theorem step_takes_event (s : State) (e : HostEvent) (rest : List HostEvent) (hs : Sound s)
    (h : s.pending = e :: rest) : ∃ t, step s = .next t ∧ t.pending = rest := by
  cases e with
  | reset => exact ⟨afterReset rest, step_of_pending_reset s rest h, rfl⟩
  | access p =>
    obtain ⟨t, ht⟩ := exec_answers (decode p) (beginAccess rest s) (wellFormed_decode p) (beginAccess_sound rest s hs)
    exact ⟨t, (step_of_pending_access s p rest h).trans ht, exec_pending _ _ t ht⟩

theorem run_succ_of_step (k : Nat) (s t : State) (h : step s = .next t) :
    Host.Core.run Sys2Proof.core (k + 1) s = Host.Core.run Sys2Proof.core k t := by
  have hstep : Sys2Proof.core.step s = .next t := h
  simp only [Host.Core.run, hstep]

/-- The induction over the host's events: each takes one step, which leads to a sound state. -/
theorem run_takes_all_events (events : List HostEvent) (s : State) (hs : Sound s) (h : s.pending = events) :
    ∃ t, Host.Core.run Sys2Proof.core events.length s = .next t ∧ t.pending = [] ∧ Sound t := by
  induction events generalizing s with
  | nil => exact ⟨s, rfl, h, hs⟩
  | cons e rest ih =>
    obtain ⟨u, hstep, hrest⟩ := step_takes_event s e rest hs h
    rw [List.length_cons, run_succ_of_step _ s u hstep]
    exact ih u (everyStepKeepsSoundness s u hs hstep) hrest

/-- Settles O11, by induction over the events still to come. -/
theorem hostProgramsRunToTheEnd : Obligations.HostProgramsRunToTheEnd :=
  fun s hs => run_takes_all_events s.pending s hs rfl

end Sys2Proof.Machine

/-! PROOFS. Proofs/Encoding.lean: decoding and encoding undo each other, what the next step does with a table word, and who
writes the operand and result registers (spec/30_encoding.md). -/

namespace Sys2Proof

/-! ## The round trip -/

/-- A well-formed instruction comes back from its transaction (R76): the constructors' own lemmas, put together. -/
theorem decode_encode (i : Instr) (hi : wellFormed i = true) : decode (encode i) = i := by
  cases i with
  | enc32 => exact Laws.RoundTrip.enc32 hi
  | enc64 => exact Laws.RoundTrip.enc64 hi
  | len32 => exact Laws.RoundTrip.len32 hi
  | len64 => exact Laws.RoundTrip.len64 hi
  | dec32r => exact Laws.RoundTrip.dec32r hi
  | dec64r => exact Laws.RoundTrip.dec64r hi
  | dec32w => exact Laws.RoundTrip.dec32w hi
  | dec64w => exact Laws.RoundTrip.dec64w hi
  | fdetect => exact Laws.RoundTrip.fdetect hi
  | frelease => exact Laws.RoundTrip.frelease hi
  | fhdr => exact Laws.RoundTrip.fhdr hi
  | feos => exact Laws.RoundTrip.feos hi
  | sreset => exact Laws.RoundTrip.sreset hi
  | illegal w => exact Laws.RoundTrip.illegal w hi
  | rxpush wdata => exact Laws.RoundTrip.rxpush wdata hi
  | rxpeek => exact Laws.RoundTrip.rxpeek hi
  | regwr a wdata => exact Laws.RoundTrip.regwr a wdata hi
  | regrd a => exact Laws.RoundTrip.regrd a hi

/-- A command's opcode is the whole of its word, and ILLEGAL keeps its word, so no bit of a CMD write is lost (R72, R74). -/
theorem encode_decodeCommand (w : Word) : encode (decodeCommand w) = .write cmdIndex w := by
  rw [decodeCommand_eq]
  split
  case h_14 => rfl
  all_goals
    next hw => exact congrArg (PortAccess.write cmdIndex) (BitVec.eq_of_toNat_eq hw.symm)

theorem encode_decode (p : PortAccess) : encode (decode p) = p := by
  cases p with
  | read a =>
    by_cases ha : a = rxpeekIndex <;> simp [decode, ha, encode]
  | write a wdata =>
    by_cases hcmd : a = cmdIndex
    · simpa [decode, hcmd] using encode_decodeCommand wdata
    · by_cases hrx : a = rxdataIndex
      · simp [decode, hrx, encode, cmdIndex, rxdataIndex]
      · simp [decode, hcmd, hrx, encode]

/-- Settles O1: the two round trips, and that only well-formed instructions are decoded. -/
theorem decodeAndEncodeAgree : Obligations.DecodeAndEncodeAgree :=
  ⟨decode_encode, fun p => ⟨wellFormed_decode p, encode_decode p⟩⟩

/-- Settles O2: each of these transactions is the encoding of a well-formed instruction, which decoding gives back. -/
theorem specWordsDecodeToTheirInstructions : Obligations.SpecWordsDecodeToTheirInstructions :=
  ⟨decode_encode .enc32 rfl, decode_encode .enc64 rfl, decode_encode .len32 rfl, decode_encode .len64 rfl,
    decode_encode .dec32r rfl, decode_encode .dec64r rfl, decode_encode .dec32w rfl, decode_encode .dec64w rfl,
    decode_encode .fdetect rfl, decode_encode .frelease rfl, decode_encode .fhdr rfl, decode_encode .feos rfl,
    decode_encode .sreset rfl, decode_encode (.illegal 0x101) rfl, decode_encode (.rxpush 0xFFFFFF41) rfl,
    decode_encode .rxpeek rfl, decode_encode (.regwr 2 3) rfl, decode_encode (.regrd 1) rfl⟩

end Sys2Proof

namespace Sys2Proof.Machine

open Sys2Proof

/-! ## Table words -/

/-- A table word decodes exactly if it stands for a transaction, and then to what the transaction decodes to. -/
theorem decodeTableWord_eq_some_iff (nbits w : Nat) (i : Instr) :
    decodeTableWord nbits w = some i ↔ ∃ p, tableAccess nbits w = .ok p ∧ decode p = i := by
  unfold decodeTableWord
  cases tableAccess nbits w <;> simp

theorem withFetchWord_of_tableAccess (s : State) (nbits w : Nat) (p : PortAccess) (h : tableAccess nbits w = .ok p) :
    s.withFetchWord nbits w = issue p s := by
  simp only [State.withFetchWord, h]

theorem step_issue (p : PortAccess) (s : State) : step (issue p s) = exec (decode p) { s with resp := none } :=
  step_of_pending_access (issue p s) p s.pending (issue_pending p s)

/-- Settles O7: the word's transaction is issued, and the step runs what it decodes to. -/
theorem fetchWordIsRunNext : Obligations.FetchWordIsRunNext := by
  intro s nbits w i h
  obtain ⟨p, hp, rfl⟩ := (decodeTableWord_eq_some_iff nbits w i).1 h
  rw [withFetchWord_of_tableAccess s nbits w p hp, step_issue]

/-! ## Who writes the operand and result registers -/

/-- No operand register differs, nor a result register (R13, R19 to R23). -/
structure SameOperands (s t : State) : Prop where
  ctrl : t.ctrl = s.ctrl
  in0 : t.in0 = s.in0
  in1 : t.in1 = s.in1
  in2 : t.in2 = s.in2
  inlen : t.inlen = s.inlen
  out0 : t.out0 = s.out0
  out1 : t.out1 = s.out1
  out2 : t.out2 = s.out2
  valLo : t.valLo = s.valLo
  valHi : t.valHi = s.valHi
  cnt : t.cnt = s.cnt

theorem finish_sameOperands (c : Code) (s : State) : SameOperands s (finish c s) := by
  constructor <;> rfl

theorem latch_sameOperands (c : Code) (s : State) : SameOperands s (latch c s) := by
  constructor <;> simp

theorem respond_sameOperands (v : Word) (s : State) : SameOperands s (respond v s) := by
  constructor <;> rfl

theorem pushByte_sameOperands (cap : Nat) (b : Byte) (s : State) : SameOperands s (pushByte cap b s) := by
  obtain ⟨-, hpush⟩ | ⟨-, hpush⟩ := pushByte_cases cap b s <;> rw [hpush]
  · exact latch_sameOperands ..
  · constructor <;> rfl

theorem feos_sameOperands (s t : State) (h : exec .feos s = .next t) : SameOperands s t := by
  obtain ⟨-, hx⟩ | ⟨-, -, hx⟩ | ⟨-, -, hx⟩ := feos_cases s <;> cases hx.symm.trans h <;> constructor <;> rfl

/-- `t` is a success that wrote VAL and CNT, and no other operand or result register (R104). -/
def WroteValAndCnt (s t : State) : Prop :=
  t.code = .ok ∧ ∃ hi lo k, SameOperands (setCnt k (setVal hi lo s)) t

/-- `t` is a success that wrote CNT, and no other operand or result register (R107, R108, R130). -/
def WroteCnt (s t : State) : Prop :=
  t.code = .ok ∧ ∃ k, SameOperands (setCnt k s) t

theorem lengthOut_wroteCnt (w : Width) (v : Nat) (s : State) : WroteCnt s (lengthOut w v s) :=
  ⟨rfl, varLen w v, by constructor <;> rfl⟩

/-- Only a decode that ends in OK writes back (R104). -/
theorem decWriteback_operands (w : Width) (r : Decoded) (s : State) :
    SameOperands s (decWriteback w r s) ∨ WroteValAndCnt s (decWriteback w r s) := by
  cases r with
  | ok v k => exact .inr ⟨rfl, decodedHi w v, BitVec.ofNat 32 v, k, by constructor <;> rfl⟩
  | need | invalid => exact .inl (finish_sameOperands ..)

theorem decodeAtPtr_operands (w : Width) (s : State) :
    SameOperands s (decodeAtPtr w s) ∨ WroteValAndCnt s (decodeAtPtr w s) := by
  obtain ⟨v, k, -, -, hd⟩ | ⟨-, -, hd⟩ | ⟨-, -, hd⟩ | ⟨-, hd⟩ := decodeAtPtr_cases w s <;> rw [hd]
  · exact .inr ⟨rfl, decodedHi w v, BitVec.ofNat 32 v, k, by constructor <;> rfl⟩
  all_goals exact .inl (by constructor <;> rfl)

/-- FDETECT writes CNT just when it finds a frame (R130). -/
theorem fdetect_operands (s t : State) (h : exec .fdetect s = .next t) : SameOperands s t ∨ WroteCnt s t := by
  obtain ⟨-, rfl⟩ | ⟨hferr, -, rfl⟩ := fdetect_cases s t h
  · exact .inl (by constructor <;> rfl)
  obtain ⟨-, hj⟩ | ⟨-, hj⟩ | ⟨-, -, hj⟩ | ⟨-, -, -, -, -, hj⟩ | ⟨-, -, -, -, -, -, hj⟩ | ⟨len, k, -, -, -, -, hj⟩ :=
    judgeFrame_cases Config.rxcap (decodeWin .w32 s.scan s) s hferr <;> rw [hj]
  case inr.inr.inr.inr.inr => exact .inr ⟨rfl, k, by constructor <;> rfl⟩
  all_goals exact .inl (by constructor <;> rfl)

theorem fhdr_operands (s t : State) (h : exec .fhdr s = .next t) :
    SameOperands s t ∨ t = encodeOut .w32 (operand32 s) s := by
  obtain ⟨-, hx⟩ | ⟨-, hx⟩ := fhdr_cases s <;> cases hx.symm.trans h
  · exact .inl (finish_sameOperands ..)
  · exact .inr rfl

/-- All that an instruction other than SRESET can do to the operand and result registers (R73, R152). -/
theorem operand_effect (i : Instr) (s t : State) (h : exec i s = .next t) (hi : i ≠ .sreset) :
    SameOperands s t ∨
    ((i = .enc32 ∨ i = .enc64 ∨ i = .fhdr) ∧ ∃ w v, t = encodeOut w v s) ∨
    ((i = .len32 ∨ i = .len64 ∨ i = .fdetect) ∧ WroteCnt s t) ∨
    ((i = .dec32r ∨ i = .dec64r ∨ i = .dec32w ∨ i = .dec64w) ∧ WroteValAndCnt s t) ∨
    (∃ a wdata, i = .regwr a wdata ∧ t = writeReg (regAt a) wdata s) := by
  cases i with
  | enc32 | enc64 =>
    cases h
    exact .inr (.inl ⟨by simp, _, _, rfl⟩)
  | len32 | len64 =>
    cases h
    exact .inr (.inr (.inl ⟨by simp, lengthOut_wroteCnt ..⟩))
  | dec32r | dec64r =>
    cases h
    obtain hsame | hwrote := decWriteback_operands _ _ s
    · exact .inl hsame
    · exact .inr (.inr (.inr (.inl ⟨by simp, hwrote⟩)))
  | dec32w | dec64w =>
    cases h
    obtain hsame | hwrote := decodeAtPtr_operands _ s
    · exact .inl hsame
    · exact .inr (.inr (.inr (.inl ⟨by simp, hwrote⟩)))
  | fdetect =>
    obtain hsame | hwrote := fdetect_operands s t h
    · exact .inl hsame
    · exact .inr (.inr (.inl ⟨by simp, hwrote⟩))
  | frelease =>
    cases h
    exact .inl (by constructor <;> rfl)
  | fhdr =>
    obtain hsame | hencoded := fhdr_operands s t h
    · exact .inl hsame
    · exact .inr (.inl ⟨by simp, _, _, hencoded⟩)
  | feos => exact .inl (feos_sameOperands s t h)
  | sreset => exact absurd rfl hi
  | illegal w =>
    rw [illegal_next w s t h]
    exact .inl (finish_sameOperands ..)
  | rxpush wdata =>
    cases h
    exact .inl (pushByte_sameOperands ..)
  | rxpeek | regrd =>
    cases h
    exact .inl (respond_sameOperands ..)
  | regwr a wdata => exact .inr (.inr (.inr (.inr ⟨a, wdata, rfl, regwr_next a wdata s t h⟩)))

/-- A register write reaches none of the result registers but VAL (R20, R21, R152). -/
theorem writeReg_results (r : Option Reg) (wdata : Word) (s : State) :
    (writeReg r wdata s).out0 = s.out0 ∧ (writeReg r wdata s).out1 = s.out1 ∧ (writeReg r wdata s).out2 = s.out2 ∧
      (writeReg r wdata s).cnt = s.cnt := by
  rw [writeReg_frame]
  exact ⟨rfl, rfl, rfl, rfl⟩

/-- Settles O48, by what each of the five effects leaves alone. -/
theorem operandRegistersHaveFewWriters : Obligations.OperandRegistersHaveFewWriters := by
  intro i s t h hi
  obtain hsame | ⟨henc, w, v, rfl⟩ | ⟨hcnt, hok, k, hsame⟩ | ⟨hdec, hok, high, low, k, hsame⟩ | ⟨a, wdata, rfl, rfl⟩ :=
    operand_effect i s t h hi
  · simp [hsame.ctrl, hsame.in0, hsame.in1, hsame.in2, hsame.inlen, hsame.out0, hsame.out1, hsame.out2, hsame.valLo,
      hsame.valHi, hsame.cnt]
  · obtain rfl | rfl | rfl := henc <;> simp [encodeOut_eq, isCommand]
  · obtain rfl | rfl | rfl := hcnt <;>
      simp [hsame.ctrl, hsame.in0, hsame.in1, hsame.in2, hsame.inlen, hsame.out0, hsame.out1, hsame.out2,
        hsame.valLo, hsame.valHi, hok, isCommand]
  · obtain rfl | rfl | rfl | rfl := hdec <;>
      simp [hsame.ctrl, hsame.in0, hsame.in1, hsame.in2, hsame.inlen, hsame.out0, hsame.out1, hsame.out2, hok,
        isCommand]
  · simp [writeReg_results]

end Sys2Proof.Machine

/-! PROOFS. Proofs/Varint.lean: the canonical length, what a decode answers and its round trip with the encoding, and what
the VarInt commands write (spec/40_varint.md). -/

namespace Sys2Proof.Machine

open Sys2Proof

/-! ## The canonical length -/

/-- `VarLen_W(v)` is a length for `v`, and no smaller one is (R100). -/
theorem isVarLen_varLen (w : Width) (v : Nat) (hv : v < 2 ^ widthBits w) : IsVarLen v (varLen w v) := by
  refine ⟨(varLen_bounds w v).1, varLen_fits w v hv, fun m hm hfits => ?_⟩
  by_contra! hlt
  exact absurd hfits (varLen_minimal w v m hm hlt).not_gt

theorem isVarLen_unique {v m n : Nat} (hm : IsVarLen v m) (hn : IsVarLen v n) : m = n := by
  obtain ⟨hm1, hmfits, hmleast⟩ := hm
  obtain ⟨hn1, hnfits, hnleast⟩ := hn
  exact le_antisymm (hmleast n hn1 hnfits) (hnleast m hm1 hmfits)

theorem isVarLen_iff (w : Width) (v n : Nat) (hv : v < 2 ^ widthBits w) : IsVarLen v n ↔ n = varLen w v := by
  refine ⟨fun h => isVarLen_unique h (isVarLen_varLen w v hv), ?_⟩
  rintro rfl
  exact isVarLen_varLen w v hv

/-- Settles O13, by the bounds and the two halves of leastness. -/
theorem varLenIsLeast : Obligations.VarLenIsLeast :=
  fun w v hv => ⟨isVarLen_varLen w v hv, (varLen_bounds w v).2⟩

/-! ## The value of a VarInt's bytes -/

theorem groupSum_succ (src : Nat → Byte) (k : Nat) :
    groupSum src (k + 1) = groupSum src k + (src k).toNat % 128 * 2 ^ (7 * k) := by
  simp [groupSum, List.range_succ]

theorem two_pow_seven_succ (k : Nat) : 2 ^ (7 * (k + 1)) = 2 ^ (7 * k) * 128 := by
  rw [Nat.mul_succ, Nat.pow_add]

/-- `k` groups of seven bits stay below `2^(7*k)` (R70). -/
theorem groupSum_lt (src : Nat → Byte) (k : Nat) : groupSum src k < 2 ^ (7 * k) := by
  induction k with
  | zero => simp [groupSum]
  | succ k ih =>
    have hgroup : (src k).toNat % 128 * 2 ^ (7 * k) ≤ 127 * 2 ^ (7 * k) := Nat.mul_le_mul_right _ (by omega)
    rw [groupSum_succ, two_pow_seven_succ]
    omega

/-- The first `n` groups of `v` put together again are `v` below bit `7*n` (R70, R101). -/
theorem groupSum_of_groups (src : Nat → Byte) (v n : Nat) (hs : ∀ j, j < n → (src j).toNat % 128 = group v j) :
    groupSum src n = v % 2 ^ (7 * n) := by
  induction n with
  | zero => simp [groupSum, Nat.mod_one]
  | succ n ih =>
    rw [groupSum_succ, ih fun j hj => hs j (by omega), hs n (by omega), two_pow_seven_succ, Nat.mod_mul, group,
      Nat.mul_comm (2 ^ (7 * n))]

/-! ## What the loop of VarDecode ends with -/

theorem Terminates.le_avail {src : Nat → Byte} {avail groups k : Nat} (h : Terminates src avail groups k) :
    k ≤ avail := h.2.1

theorem Terminates.le_groups {src : Nat → Byte} {avail groups k : Nat} (h : Terminates src avail groups k) :
    k ≤ groups := h.2.2.1

/-- A VarInt's last byte carries no continuation bit, so the bytes up to it do not all carry one (R70). -/
theorem Terminates.not_all_continued {src : Nat → Byte} {avail groups k n : Nat} (h : Terminates src avail groups k)
    (hn : k ≤ n) : ¬ ∀ j, j < n → 128 ≤ (src j).toNat := by
  obtain ⟨hpos, -, -, -, hlast⟩ := h
  intro hall
  exact absurd hlast (hall (k - 1) (by omega)).not_gt

/-- A source starts with one VarInt at most: the shorter one's last byte would be inside the longer one (R70). -/
theorem Terminates.unique {src : Nat → Byte} {avail groups k k' : Nat} (h : Terminates src avail groups k)
    (h' : Terminates src avail groups k') : k = k' := by
  obtain ⟨hpos, -, -, hcont, hlast⟩ := h
  obtain ⟨hpos', -, -, hcont', hlast'⟩ := h'
  rcases lt_trichotomy k k' with hlt | heq | hgt
  · exact absurd hlast (hcont' (k - 1) (by omega)).not_gt
  · exact heq
  · exact absurd hlast' (hcont (k' - 1) (by omega)).not_gt

/-- A loop that ends on a terminating byte has read a VarInt, and gathered its value (R70, R102). -/
theorem gather_terminates {src : Nat → Byte} {avail groups acc k : Nat}
    (h : gather src avail groups 0 0 = .done acc k) : Terminates src avail groups k ∧ acc = groupSum src k := by
  obtain ⟨hpos, hgroups, havail, hlast, hcont⟩ := gather_done _ _ _ _ _ _ _ h
  have hvalue := gather_value _ _ _ _ _ _ _ h
  refine ⟨⟨hpos, havail (Nat.zero_le _), by omega, fun j hj => hcont j (Nat.zero_le _) hj, hlast⟩, ?_⟩
  simpa [groupSum, List.range_eq_range'] using hvalue

/-! ## What VarDecode answers -/

section
variable {w : Width} {mr ht : Bool} {src : Nat → Byte} {avail : Nat}

/-- Bytes that run out with continuation bits all along admit `Need` alone (R102(c)). -/
theorem decodesAs_iff_of_ranOut (hfew : avail < maxGroups w) (hcont : ∀ j, j < avail → 128 ≤ (src j).toNat)
    (r : Decoded) : DecodesAs w mr ht src avail r ↔ r = .need := by
  cases r with
  | need => exact iff_of_true ⟨hfew, hcont⟩ rfl
  | ok v k =>
    refine iff_of_false ?_ nofun
    rintro ⟨hk, -⟩
    exact hk.not_all_continued hk.le_avail hcont
  | invalid =>
    refine iff_of_false ?_ nofun
    rintro (⟨hmany, -⟩ | ⟨k, hk, -⟩)
    · omega
    · exact hk.not_all_continued hk.le_avail hcont

/-- A continuation bit on byte `G` admits `Invalid` alone (R102(b)). -/
theorem decodesAs_iff_of_tooLong (hmany : maxGroups w ≤ avail) (hcont : ∀ j, j < maxGroups w → 128 ≤ (src j).toNat)
    (r : Decoded) : DecodesAs w mr ht src avail r ↔ r = .invalid := by
  cases r with
  | need =>
    refine iff_of_false ?_ nofun
    rintro ⟨hfew, -⟩
    omega
  | ok v k =>
    refine iff_of_false ?_ nofun
    rintro ⟨hk, -⟩
    exact hk.not_all_continued hk.le_groups hcont
  | invalid => exact iff_of_true (.inl ⟨hmany, hcont⟩) rfl

/-- What R102 asks of a terminated VarInt: no bits beyond the width unless HITRUNC drops them, and the canonical length
under MINREQ. -/
def Accepted (w : Width) (mr ht : Bool) (sum k : Nat) : Prop :=
  (sum < 2 ^ widthBits w ∨ ht = true) ∧ (mr = true → k = varLen w (sum % 2 ^ widthBits w))

/-- On a value cut to the width, the canonical length is `VarLen_W` (R100). -/
theorem isVarLen_mod_iff (w : Width) (sum k : Nat) :
    IsVarLen (sum % 2 ^ widthBits w) k ↔ k = varLen w (sum % 2 ^ widthBits w) :=
  isVarLen_iff w _ k (Nat.mod_lt _ (by positivity))

/-- The two ways R102 rejects a terminated VarInt. -/
theorem not_accepted_iff {sum k : Nat} : ¬ Accepted w mr ht sum k ↔
    (2 ^ widthBits w ≤ sum ∧ ht = false) ∨ (mr = true ∧ k ≠ varLen w (sum % 2 ^ widthBits w)) := by
  simp only [Accepted, not_and_or, not_or, Classical.not_imp, not_lt, Bool.not_eq_true, ne_eq]

theorem not_decodesAs_need {k : Nat} (hk : Terminates src avail (maxGroups w) k) :
    ¬ DecodesAs w mr ht src avail .need := by
  rintro ⟨-, hcont⟩
  exact hk.not_all_continued hk.le_avail hcont

/-- A source that starts with a VarInt admits success with that VarInt alone, if it is accepted (R102). -/
theorem decodesAs_ok_iff {k : Nat} (hk : Terminates src avail (maxGroups w) k) (v k' : Nat) :
    DecodesAs w mr ht src avail (.ok v k') ↔
      Accepted w mr ht (groupSum src k) k ∧ v = groupSum src k % 2 ^ widthBits w ∧ k' = k := by
  rw [Accepted, ← isVarLen_mod_iff]
  constructor
  · rintro ⟨hk', rfl, hbits, hlen⟩
    obtain rfl := hk.unique hk'
    exact ⟨⟨hbits, hlen⟩, rfl, rfl⟩
  · rintro ⟨⟨hbits, hlen⟩, rfl, rfl⟩
    exact ⟨hk, rfl, hbits, hlen⟩

/-- A source that starts with a VarInt admits `Invalid` if that VarInt is rejected, and not otherwise (R102). -/
theorem decodesAs_invalid_iff {k : Nat} (hk : Terminates src avail (maxGroups w) k) :
    DecodesAs w mr ht src avail .invalid ↔ ¬ Accepted w mr ht (groupSum src k) k := by
  rw [not_accepted_iff, ne_eq, ← isVarLen_mod_iff]
  constructor
  · rintro (⟨-, hcont⟩ | ⟨k', hk', hbad⟩)
    · exact absurd hcont (hk.not_all_continued hk.le_groups)
    · rwa [hk.unique hk']
  · exact fun hbad => .inr ⟨k, hk, hbad⟩

/-- After the loop, VarDecode asks whether the VarInt is accepted (R102). -/
theorem varDecode_of_done {acc k : Nat} (hg : gather src avail (maxGroups w) 0 0 = .done acc k) :
    (Accepted w mr ht acc k ∧ varDecode w mr ht src avail = .ok (acc % 2 ^ widthBits w) k) ∨
      (¬ Accepted w mr ht acc k ∧ varDecode w mr ht src avail = .invalid) := by
  simp only [varDecode, hg]
  by_cases hexcess : 2 ^ widthBits w ≤ acc ∧ ht = false
  · exact .inr ⟨not_accepted_iff.2 (.inl hexcess), if_pos hexcess⟩
  · rw [if_neg hexcess]
    by_cases hlong : mr = true ∧ k ≠ varLen w (acc % 2 ^ widthBits w)
    · exact .inr ⟨not_accepted_iff.2 (.inr hlong), if_pos hlong⟩
    · refine .inl ⟨?_, if_neg hlong⟩
      by_contra hrej
      exact (not_accepted_iff.1 hrej).elim hexcess hlong

theorem varDecode_of_ranOut (hg : gather src avail (maxGroups w) 0 0 = .ranOut) :
    varDecode w mr ht src avail = .need := by
  simp only [varDecode, hg]

theorem varDecode_of_tooLong (hg : gather src avail (maxGroups w) 0 0 = .tooLong) :
    varDecode w mr ht src avail = .invalid := by
  simp only [varDecode, hg]

/-- `Need` is the answer just when the loop runs out of bytes: no check turns it into another, nor another into it. -/
theorem varDecode_eq_need_iff :
    varDecode w mr ht src avail = .need ↔ gather src avail (maxGroups w) 0 0 = .ranOut := by
  refine ⟨fun hneed => ?_, varDecode_of_ranOut⟩
  cases hg : gather src avail (maxGroups w) 0 0 with
  | ranOut => rfl
  | tooLong => cases (varDecode_of_tooLong hg).symm.trans hneed
  | done acc k => obtain ⟨-, h⟩ | ⟨-, h⟩ := varDecode_of_done hg <;> cases h.symm.trans hneed

end

/-- Settles O14, by what the loop ends with, and whether a terminated VarInt is accepted. -/
theorem varDecodeAnswersWhatTheBytesSay : Obligations.VarDecodeAnswersWhatTheBytesSay := by
  intro w mr ht src avail r
  cases hg : gather src avail (maxGroups w) 0 0 with
  | ranOut =>
    obtain ⟨hfew, hcont⟩ := gather_ranOut _ _ _ _ _ (Nat.zero_le _) hg
    rw [decodesAs_iff_of_ranOut (by omega) (fun j => hcont j (Nat.zero_le _)), varDecode_of_ranOut hg]
  | tooLong =>
    obtain ⟨hmany, hcont⟩ := gather_tooLong _ _ _ _ _ (Nat.zero_le _) hg
    rw [Nat.zero_add] at hmany hcont
    rw [decodesAs_iff_of_tooLong hmany (fun j => hcont j (Nat.zero_le _)), varDecode_of_tooLong hg]
  | done acc k =>
    obtain ⟨hk, rfl⟩ := gather_terminates hg
    obtain ⟨hacc, hanswer⟩ | ⟨hrej, hanswer⟩ := varDecode_of_done (mr := mr) (ht := ht) hg <;> rw [hanswer]
    · cases r <;> simp [not_decodesAs_need hk, decodesAs_ok_iff hk, decodesAs_invalid_iff hk, hacc]
    · cases r <;> simp [not_decodesAs_need hk, decodesAs_ok_iff hk, decodesAs_invalid_iff hk, hrej]

/-- VarDecode's answer is one that the bytes call for (R102). -/
theorem varDecode_decodesAs (w : Width) (mr ht : Bool) (src : Nat → Byte) (avail : Nat) :
    DecodesAs w mr ht src avail (varDecode w mr ht src avail) :=
  (varDecodeAnswersWhatTheBytesSay w mr ht src avail _).2 rfl

/-- Settles O17: a decode that is not `Need` has met its last byte among the first `a`. -/
theorem decodeIsPrefixStable : Obligations.DecodeIsPrefixStable := by
  intro w mr ht src src' a a' ha hs
  constructor
  · intro hneed
    have hfew := (gather_ranOut _ _ _ _ _ (Nat.zero_le _) (varDecode_eq_need_iff.1 hneed)).1
    omega
  · intro hanswer
    have hloop := gather_prefix src src' a a' (maxGroups w) 0 0 (Nat.zero_le _) ha hs
      (mt varDecode_eq_need_iff.2 hanswer)
    rw [varDecode, hloop, varDecode]

/-! ## Encodings -/

theorem group_lt (v j : Nat) : group v j < 128 := Nat.mod_lt _ (by omega)

/-- A group fills the low seven bits of its byte, and the continuation bit is added above them (R101). -/
theorem encodedByte_toNat (v n j : Nat) :
    (encodedByte v n j).toNat = group v j + if j + 1 < n then 128 else 0 := by
  have hlt := group_lt v j
  rw [encodedByte, BitVec.toNat_ofNat, Nat.mod_eq_of_lt]
  split <;> omega

theorem varEncode_getD_toNat (w : Width) (v j : Nat) (hj : j < varLen w v) :
    ((varEncode w v).getD j 0).toNat = group v j + if j + 1 < varLen w v then 128 else 0 := by
  rw [varEncode_getD, if_pos hj, encodedByte_toNat]

/-- An encoding is a VarInt: it fits the width's groups and ends on its only byte below 128 (R70, R101). -/
theorem varEncode_terminates (w : Width) (v : Nat) :
    Terminates (fun j => (varEncode w v).getD j 0) (varEncode w v).length (maxGroups w) (varLen w v) := by
  obtain ⟨hpos, hgroups⟩ := varLen_bounds w v
  refine ⟨hpos, (varEncode_length w v).ge, hgroups, fun j hj => ?_, ?_⟩
  · rw [varEncode_getD_toNat w v j (by omega), if_pos hj]
    omega
  · rw [varEncode_getD_toNat w v _ (by omega), if_neg (by omega)]
    exact group_lt v _

/-- The groups of an encoding make up the value (R101). -/
theorem groupSum_varEncode (w : Width) (v : Nat) (hv : v < 2 ^ widthBits w) :
    groupSum (fun j => (varEncode w v).getD j 0) (varLen w v) = v := by
  rw [groupSum_of_groups _ v _ fun j hj => ?_, Nat.mod_eq_of_lt (varLen_fits w v hv)]
  have hlt := group_lt v j
  rw [varEncode_getD_toNat w v j hj]
  split <;> omega

/-- Settles O15: an encoding is a VarInt of canonical length with no bit beyond the width, so no CTRL rejects it. -/
theorem varintRoundTrip : Obligations.VarintRoundTrip := by
  intro w mr ht v hv
  have hsum := groupSum_varEncode w v hv
  have hdecodes : DecodesAs w mr ht (fun j => (varEncode w v).getD j 0) (varEncode w v).length
      (.ok v (varLen w v)) := by
    refine ⟨varEncode_terminates w v, ?_, .inl (hsum.trans_lt hv), fun _ => isVarLen_varLen w v hv⟩
    rw [hsum, Nat.mod_eq_of_lt hv]
  exact ((varDecodeAnswersWhatTheBytesSay ..).1 hdecodes).symm

/-- The group of the topmost bits of `v` is not zero (R101). -/
theorem group_pos (v j : Nat) (hle : 2 ^ (7 * j) ≤ v) (hlt : v < 2 ^ (7 * (j + 1))) : 0 < group v j := by
  rw [two_pow_seven_succ] at hlt
  rw [group, Nat.mod_eq_of_lt (Nat.div_lt_of_lt_mul hlt)]
  exact Nat.div_pos hle (by positivity)

/-- Settles O16: fewer groups than VarLen do not hold `v`, so the last one of an encoding is needed. -/
theorem varintEncodingIsMinimal : Obligations.VarintEncodingIsMinimal := by
  intro w v hv
  obtain ⟨-, hfits, hleast⟩ := isVarLen_varLen w v hv
  refine ⟨varEncode_length w v, ?_, ?_⟩
  · rintro src k hk rfl
    exact hleast k hk (groupSum_lt src k)
  · intro hlen hzero
    have hlast := varEncode_getD_toNat w v (varLen w v - 1) (by omega)
    have hneeded := varLen_minimal w v (varLen w v - 1) (by omega) (by omega)
    have hgroup := group_pos v (varLen w v - 1) hneeded (by rwa [Nat.sub_add_cancel hlen.le])
    rw [hzero, if_neg (by omega)] at hlast
    exact hgroup.ne hlast

/-! ## What the commands write -/

/-- ENC32 and ENC64 leave the canonical form in OUT (R101, R103). -/
theorem encodeOut_outHolds (w : Width) (v : Nat) (s : State) : OutHolds v (varLen w v) (encodeOut w v s) := by
  refine ⟨fun j hj => ?_, putOut_high (varEncode w v) s⟩
  have hbyte : outByte (encodeOut w v s) j = (varEncode w v).getD j 0 := outByte_putOut (varEncode w v) s j hj
  rw [hbyte, varEncode_getD]
  split
  · exact encodedByte_toNat v _ j
  · rfl

/-- Encoding writes OUT, CNT and CODE and nothing else (R73). -/
theorem encodeOut_frame (w : Width) (v : Nat) (s : State) : encodeOut w v s =
    { s with
      out0 := (encodeOut w v s).out0, out1 := (encodeOut w v s).out1, out2 := (encodeOut w v s).out2,
      cnt := BitVec.ofNat 32 (varLen w v), code := .ok } := by
  rw [encodeOut_eq]

/-- Settles O19: the operand fits the width, so its encoding is the canonical one. -/
theorem enc32EncodesValLo : Obligations.Enc32EncodesValLo := by
  intro s
  exact ⟨_, _, exec_enc32 s, isVarLen_varLen .w32 _ (operand32_lt s), (varLen_bounds .w32 _).2,
    encodeOut_outHolds .w32 _ s, encodeOut_frame .w32 _ s, winRead_congr s _ (encodeOut_sameWindow ..).win⟩

/-- Settles O20, as O19, for the 64-bit operand. -/
theorem enc64EncodesVal : Obligations.Enc64EncodesVal := by
  intro s
  rw [← operand64_eq]
  exact ⟨_, _, exec_enc64 s, isVarLen_varLen .w64 _ (operand64_lt s), (varLen_bounds .w64 _).2,
    encodeOut_outHolds .w64 _ s, encodeOut_frame .w64 _ s, winRead_congr s _ (encodeOut_sameWindow ..).win⟩

/-- Settles O21: both commands write VarLen of an operand that fits the width. -/
theorem lenCommandsCountCanonicalBytes : Obligations.LenCommandsCountCanonicalBytes := by
  intro s
  rw [← operand64_eq]
  refine ⟨⟨_, isVarLen_varLen .w32 _ (operand32_lt s), ?_⟩, ⟨_, isVarLen_varLen .w64 _ (operand64_lt s), ?_⟩⟩
  · rw [exec_len32, lengthOut_eq]
    rfl
  · rw [exec_len64, lengthOut_eq]

/-- What a decode writes, field by field (R104). -/
theorem decWriteback_eq (w : Width) (r : Decoded) (s : State) : decWriteback w r s = decodedState w r s := by
  cases r with
  | ok v k => cases w <;> rfl
  | need | invalid => rfl

/-- Settles O22: both commands write back what VarDecode answers on `in[]`. -/
theorem decodeFromInRegisters : Obligations.DecodeFromInRegisters := by
  intro s
  refine ⟨⟨decodeIn .w32 s, varDecode_decodesAs .., ?_⟩, ⟨decodeIn .w64 s, varDecode_decodesAs .., ?_⟩⟩
  · rw [exec_dec32r, decWriteback_eq]
  · rw [exec_dec64r, decWriteback_eq]

theorem decodeAtPtr_of_inClosed (w : Width) (s : State) (hin : InClosed s.rd s.wr s.ptr) :
    decodeAtPtr w s = advancePtr (decodeWin w s.ptr s) (decodedState w (decodeWin w s.ptr s) s) := by
  rw [decodeAtPtr, if_pos hin, decWriteback_eq]

theorem decodeAtPtr_of_not_inClosed (w : Width) (s : State) (hout : ¬ InClosed s.rd s.wr s.ptr) :
    decodeAtPtr w s = { s with code := .eptr } :=
  if_neg hout

/-- Settles O23: PTR in the window is a decode whose success moves PTR, and PTR outside it is EPTR. -/
theorem decodeFromWindowAtPtr : Obligations.DecodeFromWindowAtPtr := by
  intro s
  refine ⟨fun hin => ⟨⟨decodeWin .w32 s.ptr s, varDecode_decodesAs .., ?_⟩,
    ⟨decodeWin .w64 s.ptr s, varDecode_decodesAs .., ?_⟩⟩, fun hout => ⟨?_, ?_⟩⟩
  · rw [exec_dec32w, decodeAtPtr_of_inClosed .w32 s hin]
    cases decodeWin .w32 s.ptr s <;> rfl
  · rw [exec_dec64w, decodeAtPtr_of_inClosed .w64 s hin]
    cases decodeWin .w64 s.ptr s <;> rfl
  · rw [exec_dec32w, decodeAtPtr_of_not_inClosed .w32 s hout]
  · rw [exec_dec64w, decodeAtPtr_of_not_inClosed .w64 s hout]

end Sys2Proof.Machine

/-! PROOFS. Proofs/Frame.lean: FDETECT's outcomes, the other commands of the frame detector and the window port, and
that FDETECT recovers the frames of a stream however it is delivered (spec/41_frame.md). -/

namespace Sys2Proof.Machine

open Sys2Proof

/-! ## FDETECT, outcome by outcome -/

/-- Settles O25: with no error latched, the decode of the length is judged, and a length that decodes has three tests
more to pass. -/
theorem fdetectTestsInOrder : Obligations.FdetectTestsInOrder := by
  intro s hscan
  refine ⟨decodeWin .w32 s.scan s, varDecode_decodesAs .., ?_⟩
  by_cases hf : s.ferr = .ok
  · rw [exec_fdetect_of_scan_in_window s hf (hscan hf), if_neg (not_not.2 hf)]
    cases decodeWin .w32 s.scan s with
    | need => rfl
    | invalid => exact congrArg _ (failStream_of_healthy _ s hf)
    | ok len k =>
      simp only [judgeFrame, failStream_of_healthy _ s hf]
      rfl
  · rw [exec_fdetect_of_latched s hf, if_pos hf]
    rfl

/-- The frame is found: none of the tests before it applies (R130). -/
theorem fdetect_of_decoded (s : State) (len k : Nat) (hf : s.ferr = .ok) (hin : InClosed s.rd s.wr s.scan)
    (hdec : decodeWin .w32 s.scan s = .ok len k) (hlen : 1 ≤ len) (hcap : k + len ≤ Config.rxcap)
    (hheld : k + len ≤ posDist s.scan s.wr) : exec .fdetect s = .next (finish .ok (foundFrame k len s)) := by
  rw [exec_fdetect_of_scan_in_window s hf hin, hdec, judgeFrame, if_neg (by omega), if_neg (by omega),
    if_neg (by omega)]

/-- The length is there but not the whole body (R130). -/
theorem fdetect_of_body_split (s : State) (len k : Nat) (hf : s.ferr = .ok) (hin : InClosed s.rd s.wr s.scan)
    (hdec : decodeWin .w32 s.scan s = .ok len k) (hlen : 1 ≤ len) (hcap : k + len ≤ Config.rxcap)
    (hsplit : posDist s.scan s.wr < k + len) : exec .fdetect s = .next (finish .need s) := by
  rw [exec_fdetect_of_scan_in_window s hf hin, hdec, judgeFrame, if_neg (by omega), if_neg (by omega),
    if_pos hsplit]

theorem fdetect_of_length_split (s : State) (hf : s.ferr = .ok) (hin : InClosed s.rd s.wr s.scan)
    (hdec : decodeWin .w32 s.scan s = .need) : exec .fdetect s = .next (finish .need s) := by
  rw [exec_fdetect_of_scan_in_window s hf hin, hdec]
  rfl

/-- A decode of the window answers what its bytes call for (R102, R111). -/
theorem decodeWin_eq_of_decodesAs {w : Width} {p : Position} {s : State} {r : Decoded}
    (h : DecodesAs w (minreq s) (hitrunc s) (winSource s p) (posDist p s.wr) r) : decodeWin w p s = r :=
  ((varDecodeAnswersWhatTheBytesSay ..).1 h).symm

/-- Settles O26: what the bytes decode as is what FDETECT's decode answers, and then no test is left to fail. -/
theorem fdetectFindsAWholeFrame : Obligations.FdetectFindsAWholeFrame := by
  intro s len k hf hin hdec hlen hcap hheld
  exact fdetect_of_decoded s len k hf hin (decodeWin_eq_of_decodesAs hdec) hlen hcap hheld

/-- A decode at SCAN depends on CTRL and the unscanned bytes alone (R102). -/
theorem decodeWin_scan_congr (w : Width) (s s' : State) (hctrl : s.ctrl = s'.ctrl)
    (hdist : posDist s.scan s.wr = posDist s'.scan s'.wr)
    (hbytes : ∀ i, i < posDist s.scan s.wr → winRead s (advance s.scan i) = winRead s' (advance s'.scan i)) :
    decodeWin w s.scan s = decodeWin w s'.scan s' := by
  simp only [decodeWin, minreq, hitrunc, hctrl]
  rw [← hdist]
  exact varDecode_congr w _ _ _ _ _ fun j havail _ => hbytes j havail

/-- Settles O28: both states repeat their latched code, or judge the same decoded length by the same tests. -/
theorem fdetectIsLocal : Obligations.FdetectIsLocal := by
  intro s s' t t' hferr hctrl hscan hdist hbytes h h'
  obtain ⟨hf, rfl⟩ | ⟨hf, -, rfl⟩ := fdetect_cases s t h <;>
    obtain ⟨hf', rfl⟩ | ⟨hf', -, rfl⟩ := fdetect_cases s' t' h'
  · simp [hferr, hscan, hferr ▸ hf]
  · exact absurd (hferr.trans hf') hf
  · exact absurd (hferr.symm.trans hf) hf'
  · rw [decodeWin_scan_congr .w32 s s' hctrl hdist hbytes]
    cases decodeWin .w32 s'.scan s' with
    | need => simp [judgeFrame, hferr, hscan]
    | invalid => simp [judgeFrame, failStream_of_healthy, hf, hf', hscan]
    | ok len k =>
      simp only [judgeFrame, failStream_of_healthy _ _ hf, failStream_of_healthy _ _ hf', hdist]
      split_ifs <;> simp [hf, hf', hscan]

/-! ## The other commands and the window port -/

theorem operand32_eq_zero_iff (s : State) : operand32 s = 0 ↔ s.valLo = 0 :=
  BitVec.toNat_eq (x := s.valLo) (y := 0) |>.symm

/-- Settles O30: but for length 0, FHDR is ENC32. -/
theorem fhdrEncodesALegalLength : Obligations.FhdrEncodesALegalLength := by
  intro s
  rw [ne_eq, ← operand32_eq_zero_iff]
  obtain ⟨hzero, hx⟩ | ⟨hpos, hx⟩ := fhdr_cases s
  · exact ⟨fun hne => absurd hzero hne, fun _ => hx⟩
  · refine ⟨fun _ => ⟨hx, ?_⟩, fun hzero => absurd hzero hpos⟩
    obtain ⟨t, n, henc, hlen, -, hout, hframe, -⟩ := enc32EncodesValLo s
    exact ⟨t, n, hx.trans henc, hlen, hout, hframe⟩

/-- Latching writes FERR alone (R163). -/
theorem latch_eq (c : Code) (s : State) : latch c s = { s with ferr := if s.ferr = .ok then c else s.ferr } := by
  obtain ⟨hf, hl⟩ | ⟨hf, hl⟩ := latch_cases c s <;> rw [hl]
  · rw [if_pos hf]
    rfl
  · rw [if_neg hf]

/-- Settles O32, by what a push does to a full window and to one with room. -/
theorem rxpushStoresOrOverflows : Obligations.RxpushStoresOrOverflows := by
  intro s wdata hwf
  rw [exec_rxpush]
  obtain ⟨hfull, hpush⟩ | ⟨hroom, hpush⟩ := pushByte_cases Config.rxcap (wdata.extractLsb' 0 8) s <;> rw [hpush]
  · exact ⟨fun _ => by rw [latch_eq], fun hne => absurd hfull hne⟩
  · refine ⟨fun hfull => absurd hfull hroom, fun _ => ⟨_, rfl, rfl, ?_, fun p hp => ?_, storeByte_wf _ s hwf⟩⟩
    · rw [winRead_storeByte _ s _ hwf, if_pos rfl, extract_low_toNat]
    · rw [winRead_storeByte _ s _ hwf, if_neg hp]

/-- Settles O29: FRELEASE has no test to fail. -/
theorem freleaseMovesRdToScan : Obligations.FreleaseMovesRdToScan := exec_frelease

/-- Settles O31, by the three ends of FEOS. -/
theorem feosReportsTheEndOfStream : Obligations.FeosReportsTheEndOfStream := by
  intro s
  obtain ⟨hf, hx⟩ | ⟨hf, hs, hx⟩ | ⟨hf, hs, hx⟩ := feos_cases s <;> rw [hx]
  · rw [if_pos hf]
  · rw [if_neg (not_not.2 hf), if_pos hs]
  · rw [if_neg (not_not.2 hf), if_neg (not_not.2 hs)]

/-- Bit 8 stands above the byte it marks as held (R141). -/
theorem peekWord_toNat_of_held (s : State) (hin : InHalfOpen s.rd s.wr s.ptr) :
    (peekWord s).toNat = 256 + (winRead s s.ptr).toNat := by
  have hlt := (winRead s s.ptr).isLt
  have hbyte : ((winRead s s.ptr).setWidth 32).toNat = (winRead s s.ptr).toNat :=
    BitVec.toNat_setWidth_of_le (by omega)
  rw [peekWord, if_pos hin]
  exact toNat_or_of_disjoint 8 rfl hbyte (by decide) hlt

/-- Settles O33: the port answers `peekWord`. -/
theorem rxpeekReturnsTheByteAtPtr : Obligations.RxpeekReturnsTheByteAtPtr :=
  fun s => ⟨peekWord s, exec_rxpeek s, peekWord_toNat_of_held s, fun hout => if_neg hout⟩

/-! ## The unscanned bytes -/

/-- The bytes at `[SCAN, WR)` are `bs`, in order (R56, R58). -/
structure Unscanned (bs : List Byte) (s : State) : Prop where
  length_eq : posDist s.scan s.wr = bs.length
  byte_eq : ∀ j, j < bs.length → winRead s (advance s.scan j) = bs.getD j 0

/-- Walking the distance to a position leads there (R5). -/
theorem advance_posDist (a b : Position) : advance a (posDist a b) = b := by
  unfold advance posDist
  bv_omega

theorem posDist_advance_left (a b : Position) (n : Nat) (h : n ≤ posDist a b) :
    posDist (advance a n) b = posDist a b - n := by
  unfold posDist advance at *
  bv_omega

theorem unscanned_nil (s : State) (h : s.scan = s.wr) : Unscanned [] s :=
  ⟨by simp [h], nofun⟩

/-- A stored byte comes after the unscanned ones, which it leaves alone (R59, R140). -/
theorem Unscanned.storeByte {bs : List Byte} {s : State} (h : Unscanned bs s) (b : Byte) (hs : Sound s) :
    Unscanned (bs ++ [b]) (storeByte b s) := by
  have hcap := rxcap_bounds
  have hlevel := hs.level_le_rxcap
  have hsum := posDist_add_of_inClosed _ _ _ hs.scan_in_window
  have hlen := h.length_eq
  constructor
  · have hwr := posDist_advance_right s.scan s.wr 1 (by omega)
    simp [hwr, hlen]
  · intro j hj
    rw [winRead_storeByte b s _ hs.win_wf, storeByte_scan]
    rcases Nat.lt_or_eq_of_le (Nat.le_of_lt_succ (by simpa using hj)) with hlt | rfl
    · have hheld := inHalfOpen_advance _ _ _ j hs.scan_in_window (hlen ▸ hlt)
      rw [if_neg (ne_wr_of_held s _ hheld), List.getD_append _ _ _ _ hlt]
      exact h.byte_eq j hlt
    · rw [if_pos (hlen ▸ advance_posDist s.scan s.wr)]
      simp

/-- A frame found leaves the bytes after it unscanned (R130). -/
theorem Unscanned.foundFrame {bs : List Byte} {s : State} (h : Unscanned bs s) (k len : Nat)
    (hheld : k + len ≤ bs.length) : Unscanned (bs.drop (k + len)) (foundFrame k len s) := by
  have hlen := h.length_eq
  constructor
  · have hleft := posDist_advance_left s.scan s.wr (k + len) (by omega)
    simp [hleft, hlen]
  · intro j hj
    rw [List.length_drop] at hj
    have hbyte := h.byte_eq (k + len + j) (by omega)
    rw [foundFrame_scan, advance_advance, winRead_congr s _ (foundFrame_win ..), hbyte]
    simp [List.getD_eq_getElem?_getD]

/-- What stands after the first `header` of the unscanned bytes is held, and reads as it was pushed (R56, R58). -/
theorem Unscanned.body_readable {header body : List Byte} {s : State} (h : Unscanned (header ++ body) s)
    (hin : InClosed s.rd s.wr s.scan) (i : Nat) (hi : i < body.length) :
    InHalfOpen s.rd s.wr (advance (advance s.scan header.length) i) ∧
      winRead s (advance (advance s.scan header.length) i) = body[i] := by
  have hlen := h.length_eq
  have hbyte := h.byte_eq (header.length + i) (by simpa using hi)
  rw [List.length_append] at hlen
  rw [advance_advance, hbyte]
  exact ⟨inHalfOpen_advance _ _ _ _ hin (by omega), by simp [List.getD_eq_getElem?_getD, hi]⟩

/-! ## FDETECT at a canonical length -/

section
variable {s : State} {bs later more : List Byte} {v : Nat}

/-- As far as the unscanned bytes reach, they are those of the encoded length the stream goes on with. -/
theorem Unscanned.header_byte (h : Unscanned bs s) (hstream : bs ++ later = varEncode .w32 v ++ more) (j : Nat)
    (hj : j < bs.length) (hjv : j < varLen .w32 v) : winSource s s.scan j = (varEncode .w32 v).getD j 0 := by
  calc winSource s s.scan j
      = bs.getD j 0 := h.byte_eq j hj
    _ = (bs ++ later).getD j 0 := (List.getD_append _ _ _ _ hj).symm
    _ = (varEncode .w32 v ++ more).getD j 0 := by rw [hstream]
    _ = (varEncode .w32 v).getD j 0 := List.getD_append _ _ _ _ (by simpa using hjv)

/-- Unscanned bytes that end inside an encoded length all carry a continuation bit (R102(c)). -/
theorem Unscanned.decode_length_split (h : Unscanned bs s) (hstream : bs ++ later = varEncode .w32 v ++ more)
    (hsplit : bs.length < varLen .w32 v) : decodeWin .w32 s.scan s = .need := by
  have hgroups := (varLen_bounds .w32 v).2
  have hlen := h.length_eq
  refine decodeWin_eq_of_decodesAs (r := .need) ⟨by omega, fun j hj => ?_⟩
  rw [h.header_byte hstream j (by omega) (by omega), varEncode_getD_toNat .w32 v j (by omega), if_pos (by omega)]
  omega

/-- An encoded length whose bytes are all there decodes to itself, whatever follows it (R114(a), (c)). -/
theorem Unscanned.decode_length (h : Unscanned bs s) (hstream : bs ++ later = varEncode .w32 v ++ more)
    (hv : v < 2 ^ 32) (hheld : varLen .w32 v ≤ bs.length) :
    decodeWin .w32 s.scan s = .ok v (varLen .w32 v) := by
  have hround := varintRoundTrip .w32 (minreq s) (hitrunc s) v hv
  have hlonger : (varEncode .w32 v).length ≤ posDist s.scan s.wr := by
    rwa [varEncode_length, h.length_eq]
  have hsame : ∀ j, j < (varEncode .w32 v).length → winSource s s.scan j = (varEncode .w32 v).getD j 0 := by
    intro j hj
    rw [varEncode_length] at hj
    exact h.header_byte hstream j (by omega) hj
  obtain ⟨-, hstable⟩ := decodeIsPrefixStable .w32 (minreq s) (hitrunc s) _ _ _ _ hlonger hsame
  rw [hround] at hstable
  exact hstable nofun

end

/-- With nothing unscanned, FDETECT asks for more (R130). -/
theorem fdetect_of_nothing_unscanned (s : State) (hs : Sound s) (hf : s.ferr = .ok) (h : Unscanned [] s) :
    exec .fdetect s = .next (finish .need s) :=
  fdetect_of_length_split s hf hs.scan_in_window
    (decodeWin_eq_of_decodesAs (r := .need) (by rw [h.length_eq]; exact ⟨by decide, nofun⟩))

/-- On a stream of frames that fit, of which `bs` is unscanned and `later` still to be pushed, FDETECT finds the first
frame if it is all there; if it is not, or there is none, it asks for more (R130, R65). -/
theorem fdetect_on_stream (s : State) (bs later : List Byte) (bodies : List (List Byte)) (hs : Sound s)
    (hf : s.ferr = .ok) (h : Unscanned bs s) (hstream : bs ++ later = wireFrames bodies)
    (hbodies : ∀ b ∈ bodies, 1 ≤ b.length) (hfits : bs.length + later.length ≤ Config.rxcap) :
    (exec .fdetect s = .next (finish .need s) ∧ (later = [] → bodies = [])) ∨
    (∃ body rest, bodies = body :: rest ∧ varLen .w32 body.length + body.length ≤ bs.length ∧
      exec .fdetect s = .next (finish .ok (foundFrame (varLen .w32 body.length) body.length s)) ∧
      bs.drop (varLen .w32 body.length + body.length) ++ later = wireFrames rest) := by
  cases bodies with
  | nil =>
    obtain ⟨rfl, -⟩ := List.append_eq_nil_iff.1 hstream
    exact .inl ⟨fdetect_of_nothing_unscanned s hs hf h, fun _ => rfl⟩
  | cons body rest =>
    have hin := hs.scan_in_window
    have hlen := h.length_eq
    have hcap := rxcap_bounds
    have hbody : 1 ≤ body.length := hbodies body List.mem_cons_self
    have htotal : bs.length + later.length = varLen .w32 body.length + body.length + (wireFrames rest).length := by
      simpa [wireFrames, Nat.add_assoc] using congrArg List.length hstream
    have hhead : bs ++ later = varEncode .w32 body.length ++ (body ++ wireFrames rest) := by
      rw [hstream, wireFrames, List.append_assoc]
    have hmore : bs.length < varLen .w32 body.length + body.length → later ≠ [] := by
      rintro hsplit rfl
      rw [List.length_nil] at htotal
      omega
    rcases Nat.lt_or_ge bs.length (varLen .w32 body.length) with hsplit | hheld
    · exact .inl ⟨fdetect_of_length_split s hf hin (h.decode_length_split hhead hsplit),
        fun hnone => absurd hnone (hmore (by omega))⟩
    have hdec := h.decode_length hhead (by omega) hheld
    rcases Nat.lt_or_ge bs.length (varLen .w32 body.length + body.length) with hsplit | hwhole
    · exact .inl ⟨fdetect_of_body_split s _ _ hf hin hdec hbody (by omega) (by omega),
        fun hnone => absurd hnone (hmore hsplit)⟩
    · refine .inr ⟨body, rest, rfl, hwhole, fdetect_of_decoded s _ _ hf hin hdec hbody (by omega) (by omega), ?_⟩
      rw [← List.drop_append_of_le_length hwhole, hstream, wireFrames]
      exact List.drop_left' (by simp)

/-! ## The receiving host -/

@[simp] theorem pushedBytes_append_detect (events : List Receive) :
    pushedBytes (events ++ [.detect]) = pushedBytes events := by
  induction events with
  | nil => rfl
  | cons e es ih => cases e <;> simp [pushedBytes, ih]

/-- A pushed byte comes back out of the data word it is written in (R24). -/
theorem extract_low_setWidth (b : Byte) : (b.setWidth 32).extractLsb' 0 8 = b := by
  ext i hi
  simp [hi]
  omega

theorem exec_rxpush_byte (b : Byte) (s : State) :
    exec (.rxpush (b.setWidth 32)) s = .next (pushByte Config.rxcap b s) := by
  rw [exec_rxpush, extract_low_setWidth]

theorem receive_push (base : Position) (b : Byte) (es : List Receive) (s : State) :
    receive base (.push b :: es) s = receive base es (pushByte Config.rxcap b s) := by
  simp only [receive, exec_rxpush_byte]

theorem receive_detect (base : Position) (es : List Receive) (s t : State) (h : exec .fdetect s = .next t) :
    receive base (.detect :: es) s = (receive base es t).map fun r =>
      (r.1, if t.code = .ok then (posDist base t.fstart, t.flen.toNat) :: r.2 else r.2) := by
  simp only [receive, h]
  cases receive base es t <;> rfl

theorem receive_detect_of_need (base : Position) (es : List Receive) (s : State)
    (h : exec .fdetect s = .next (finish .need s)) :
    receive base (.detect :: es) s = receive base es (finish .need s) := by
  rw [receive_detect base es s _ h]
  simp

theorem foundFrame_flen_toNat (k len : Nat) (s : State) (hlen : len < 2 ^ 32) :
    (foundFrame k len s).flen.toNat = len := by
  rw [foundFrame_flen, BitVec.toNat_ofNat, Nat.mod_eq_of_lt hlen]

/-- The frame found heads the list, as its place and its length (R130). -/
theorem receive_detect_of_found (base : Position) (es : List Receive) (s : State) (k len : Nat) (hlen : len < 2 ^ 32)
    (h : exec .fdetect s = .next (finish .ok (foundFrame k len s))) :
    receive base (.detect :: es) s = (receive base es (finish .ok (foundFrame k len s))).map fun r =>
      (r.1, (posDist base (advance s.scan k), len) :: r.2) := by
  rw [receive_detect base es s _ h, finish_flen, foundFrame_flen_toNat k len s hlen]
  rfl

/-- A run over an FDETECT goes through the state it answers. -/
theorem receive_detect_some {base : Position} {es : List Receive} {s u : State} {frames : List (Nat × Nat)}
    (h : receive base (.detect :: es) s = some (u, frames)) :
    ∃ t, exec .fdetect s = .next t ∧ ∃ frames', receive base es t = some (u, frames') := by
  cases hx : exec .fdetect s with
  | next t =>
    rw [receive_detect base es s t hx, Option.map_eq_some_iff] at h
    obtain ⟨⟨u', frames'⟩, hrun, heq⟩ := h
    cases heq
    exact ⟨t, rfl, frames', hrun⟩
  | fault r => simp [receive, hx] at h
  | refused r => simp [receive, hx] at h

/-- A run that ends with nothing latched began so: neither a push nor an FDETECT clears the latch (R163). -/
theorem receive_healthy (base : Position) (events : List Receive) (s t : State) (frames : List (Nat × Nat))
    (h : receive base events s = some (t, frames)) (hf : t.ferr = .ok) : s.ferr = .ok := by
  induction events generalizing s frames with
  | nil =>
    cases h
    exact hf
  | cons e es ih =>
    cases e with
    | push b =>
      rw [receive_push] at h
      have hpushed := ih _ _ h
      obtain ⟨-, hp⟩ | ⟨-, hp⟩ := pushByte_cases Config.rxcap b s <;> rw [hp] at hpushed
      · by_contra hlatched
        rw [latch_ferr, if_neg hlatched] at hpushed
        exact hlatched hpushed
      · exact hpushed
    | detect =>
      obtain ⟨u, hx, frames', hrun⟩ := receive_detect_some h
      obtain ⟨-, rfl⟩ | ⟨hok, -⟩ := fdetect_cases s u hx
      · exact ih { s with code := s.ferr } _ hrun
      · exact hok

/-- A push in a run that ends with nothing latched stored its byte: a full window would have latched EOVF (R140). -/
theorem receive_push_some {base : Position} {b : Byte} {es : List Receive} {s t : State} {frames : List (Nat × Nat)}
    (h : receive base (.push b :: es) s = some (t, frames)) (hf : t.ferr = .ok) :
    posDist s.rd s.wr ≠ Config.rxcap ∧ receive base es (storeByte b s) = some (t, frames) := by
  rw [receive_push] at h
  obtain ⟨-, hp⟩ | ⟨hroom, hp⟩ := pushByte_cases Config.rxcap b s <;> rw [hp] at h
  · have hhealthy := receive_healthy _ _ _ _ _ h hf
    rw [latch_ferr] at hhealthy
    split at hhealthy <;> contradiction
  · exact ⟨hroom, h⟩

theorem fdetect_keeps_level (s t : State) (h : exec .fdetect s = .next t) : posDist t.rd t.wr = posDist s.rd s.wr := by
  obtain hsame | ⟨k, len, rfl⟩ := fdetect_window s t h
  · rw [hsame.rd, hsame.wr]
  · rfl

/-- A run that ends with nothing latched had room for every byte it pushed (R140). -/
theorem receive_level (base : Position) (events : List Receive) (s t : State) (frames : List (Nat × Nat))
    (hs : Sound s) (h : receive base events s = some (t, frames)) (hf : t.ferr = .ok) :
    posDist s.rd s.wr + (pushedBytes events).length ≤ Config.rxcap := by
  induction events generalizing s frames with
  | nil => simpa [pushedBytes] using hs.level_le_rxcap
  | cons e es ih =>
    cases e with
    | push b =>
      obtain ⟨hroom, hrun⟩ := receive_push_some h hf
      have hcap := rxcap_bounds
      have hlevel := hs.level_le_rxcap
      have hwr := posDist_advance_right s.rd s.wr 1 (by omega)
      have hrest := ih _ _ (storeByte_sound b s hroom hs) hrun
      simp only [storeByte_rd, storeByte_wr] at hrest
      simp only [pushedBytes, List.length_cons]
      omega
    | detect =>
      obtain ⟨u, hx, frames', hrun⟩ := receive_detect_some h
      rw [← fdetect_keeps_level s u hx]
      exact ih u _ (fdetect_sound s u hx hs) hrun

/-! ## A stream that began at `base` -/

/-- What holds along a healthy run that counts positions from `base`: `bs` is unscanned, and no byte from `base` on is
released. -/
structure Receiving (base : Position) (bs : List Byte) (s : State) : Prop where
  sound : Sound s
  healthy : s.ferr = .ok
  unscanned : Unscanned bs s
  base_scanned : InClosed s.rd s.scan base

theorem receiving_start (s : State) (hs : Sound s) (hf : s.ferr = .ok) (hscan : s.scan = s.wr) :
    Receiving s.scan [] s :=
  ⟨hs, hf, unscanned_nil s hscan, le_rfl⟩

section
variable {base : Position} {bs : List Byte} {s : State}

theorem Receiving.finish (h : Receiving base bs s) (c : Code) : Receiving base bs (finish c s) :=
  ⟨finish_sound c s h.sound, h.healthy, ⟨h.unscanned.length_eq, h.unscanned.byte_eq⟩, h.base_scanned⟩

theorem Receiving.storeByte (h : Receiving base bs s) (b : Byte) (hroom : posDist s.rd s.wr ≠ Config.rxcap) :
    Receiving base (bs ++ [b]) (storeByte b s) :=
  ⟨storeByte_sound b s hroom h.sound, h.healthy, h.unscanned.storeByte b h.sound, h.base_scanned⟩

theorem Receiving.level (h : Receiving base bs s) : posDist base s.scan + bs.length ≤ posDist s.rd s.wr := by
  have hbase := posDist_add_of_inClosed _ _ _ h.base_scanned
  have hscan := posDist_add_of_inClosed _ _ _ h.sound.scan_in_window
  rw [← h.unscanned.length_eq]
  omega

/-- Positions among the unscanned bytes count on from SCAN's: no wrap of the counter is reached (R2, R5). -/
theorem Receiving.posDist_advance_scan (h : Receiving base bs s) (n : Nat) (hn : n ≤ bs.length) :
    posDist base (advance s.scan n) = posDist base s.scan + n := by
  have hlevel := h.level
  have hlt := posDist_lt s.rd s.wr
  exact posDist_advance_right _ _ _ (by omega)

/-- The rest of the stream has room behind the unscanned bytes if the run over it latches nothing (R140). -/
theorem Receiving.stream_fits (h : Receiving base bs s) {events : List Receive} {t : State}
    {frames : List (Nat × Nat)} (hrun : receive base (events ++ [.detect]) s = some (t, frames)) (hf : t.ferr = .ok) :
    bs.length + (pushedBytes events).length ≤ Config.rxcap := by
  have hheld := h.level
  have hlevel := receive_level _ _ _ _ _ h.sound hrun hf
  rw [pushedBytes_append_detect] at hlevel
  omega

theorem Receiving.foundFrame (h : Receiving base bs s) (k len : Nat) (hheld : k + len ≤ bs.length) :
    Receiving base (bs.drop (k + len)) (foundFrame k len s) := by
  have hlen := h.unscanned.length_eq
  have hbase := h.base_scanned
  have hscan := posDist_add_of_inClosed _ _ _ h.sound.scan_in_window
  have hlt := posDist_lt s.rd s.wr
  have hmoved := posDist_advance_right s.rd s.scan (k + len) (by omega)
  refine ⟨foundFrame_sound k len s (hlen ▸ hheld) h.sound, h.healthy, h.unscanned.foundFrame k len hheld, ?_⟩
  simp only [InClosed, foundFrame_rd, foundFrame_scan] at hbase ⊢
  omega

end

/-- The induction over the host's events: FDETECT finds the stream's next frame as soon as it is all there, and the last
one, with every byte pushed, asks for more only if no frame is left. -/
theorem receive_finds_stream (base : Position) (events : List Receive) (s t : State) (bs : List Byte)
    (bodies : List (List Byte)) (frames : List (Nat × Nat)) (h : Receiving base bs s)
    (hbodies : ∀ b ∈ bodies, 1 ≤ b.length) (hstream : bs ++ pushedBytes events = wireFrames bodies)
    (hrun : receive base (events ++ [.detect]) s = some (t, frames)) (hf : t.ferr = .ok) (hneed : t.code = .need) :
    frames = frameSpans (posDist base s.scan) bodies := by
  have hcap := rxcap_bounds
  induction events generalizing s bs bodies frames with
  | nil =>
    obtain ⟨hx, hnone⟩ | ⟨body, rest, -, -, hx, -⟩ :=
      fdetect_on_stream s bs [] bodies h.sound h.healthy h.unscanned hstream hbodies (h.stream_fits hrun hf)
    · rw [List.nil_append, receive_detect_of_need _ _ _ hx] at hrun
      cases hrun
      rw [hnone rfl, frameSpans]
    · rw [List.nil_append, receive_detect _ _ _ _ hx] at hrun
      cases hrun
      cases hneed
  | cons e es ih =>
    cases e with
    | push b =>
      obtain ⟨hroom, hrun⟩ := receive_push_some hrun hf
      exact ih (storeByte b s) _ _ _ (h.storeByte b hroom) hbodies (by simpa [pushedBytes] using hstream) hrun
    | detect =>
      rw [pushedBytes] at hstream
      have hfits := h.stream_fits hrun hf
      rw [pushedBytes] at hfits
      obtain ⟨hx, -⟩ | ⟨body, rest, rfl, hwhole, hx, hrest⟩ :=
        fdetect_on_stream s bs _ bodies h.sound h.healthy h.unscanned hstream hbodies hfits
      · rw [List.cons_append, receive_detect_of_need _ _ _ hx] at hrun
        exact ih (finish .need s) _ _ _ (h.finish .need) hbodies hstream hrun
      · rw [List.cons_append, receive_detect_of_found _ _ _ _ _ (by omega) hx, Option.map_eq_some_iff] at hrun
        obtain ⟨⟨u, frames'⟩, hrun, heq⟩ := hrun
        cases heq
        have hfound := (h.foundFrame _ _ hwhole).finish .ok
        rw [ih _ _ rest _ hfound (fun b hb => hbodies b (List.mem_cons_of_mem _ hb)) hrest hrun]
        simp [frameSpans, h.posDist_advance_scan _ hwhole,
          h.posDist_advance_scan _ (le_trans (Nat.le_add_right _ _) hwhole), Nat.add_assoc]

/-- Settles O37: a run from an empty scan is one of the induction's, with no byte of the stream pushed yet. -/
theorem partialDeliveryFindsTheSameFrames : Obligations.PartialDeliveryFindsTheSameFrames := by
  intro s t events bodies frames hs hf hscan hbodies hpushed hrun hft hneed
  have hstart := receiving_start s hs hf hscan
  simpa using receive_finds_stream s.scan events s t [] bodies frames hstart hbodies hpushed hrun hft hneed

/-! ## One frame pushed whole -/

/-- Pushing bytes for which there is room adds them to the unscanned ones (R140). -/
theorem receive_pushes (base : Position) (new bs : List Byte) (s : State) (h : Receiving base bs s)
    (hfits : posDist s.rd s.wr + new.length ≤ Config.rxcap) :
    ∃ u, Receiving base (bs ++ new) u ∧ u.scan = s.scan ∧
      ∀ es, receive base (new.map Receive.push ++ es) s = receive base es u := by
  induction new generalizing bs s with
  | nil => exact ⟨s, by rwa [List.append_nil], rfl, fun _ => rfl⟩
  | cons b new ih =>
    rw [List.length_cons] at hfits
    have hcap := rxcap_bounds
    have hwr := posDist_advance_right s.rd s.wr 1 (by omega)
    obtain ⟨hfull, -⟩ | ⟨hroom, hp⟩ := pushByte_cases Config.rxcap b s
    · omega
    obtain ⟨u, hu, hscan, hrun⟩ := ih _ _ (h.storeByte b hroom)
      (by simp only [storeByte_rd, storeByte_wr]; omega)
    refine ⟨u, by simpa using hu, hscan, fun es => ?_⟩
    rw [List.map_cons, List.cons_append, receive_push, hp, hrun]

/-- Settles O36: the frame's bytes are the unscanned ones when FDETECT runs, so it finds the frame, and the body is what
was pushed after the length. -/
theorem framerRoundTrip : Obligations.FramerRoundTrip := by
  intro s body hs hf hscan hbody hfits
  have hcap := rxcap_bounds
  obtain ⟨u, hu, huscan, hrun⟩ := receive_pushes s.scan (varEncode .w32 body.length ++ body) [] s
    (receiving_start s hs hf hscan) (by simp; omega)
  rw [List.nil_append] at hu
  have hwhole : varLen .w32 body.length + body.length = posDist u.scan u.wr := by
    simpa using hu.unscanned.length_eq.symm
  have hin := hu.sound.scan_in_window
  have hdec := hu.unscanned.decode_length (List.append_nil _) (by omega) (by simp)
  have hx := fdetect_of_decoded u _ _ hu.healthy hin hdec hbody (by omega) hwhole.le
  refine ⟨finish .ok (foundFrame (varLen .w32 body.length) body.length u), ?_, rfl, ?_, ?_, ?_⟩
  · rw [hrun, receive_detect_of_found _ _ _ _ _ (by omega) hx, huscan, posDist_advance _ _ (by omega)]
    rfl
  · rw [finish_fstart, foundFrame_fstart, huscan]
    rfl
  · exact foundFrame_flen_toNat (varLen .w32 body.length) body.length u (by omega)
  · have hread := hu.unscanned.body_readable hin
    rw [varEncode_length] at hread
    exact hread

end Sys2Proof.Machine

/-! PROOFS. Proofs/System.lean: which command words are illegal and what they do, what a register write stores and a register
read answers, and what SRESET leaves (spec/42_system.md). -/

namespace Sys2Proof.Machine

open Sys2Proof

/-! ## The illegal command words -/

/-- The illegal words by their number: bits 31:8 not zero, or in a range that the opcodes leave out (R72, R74). -/
theorem legalCommand_eq_false_iff (w : Word) : legalCommand w = false ↔
    w.toNat / 256 ≠ 0 ∨ w.toNat = 0 ∨ (0x09 ≤ w.toNat ∧ w.toNat ≤ 0x0F) ∨
      (0x14 ≤ w.toNat ∧ w.toNat ≤ 0x1E) ∨ (0x20 ≤ w.toNat ∧ w.toNat ≤ 0xFF) := by
  rw [← Bool.not_eq_true, legalCommand_iff]
  simp only [List.mem_cons, List.not_mem_nil, or_false]
  omega

/-- A word that is no legal command is a term of the row ILLEGAL, and it completes (R151). -/
theorem exec_illegal (w : Word) (s : State) (h : legalCommand w = false) :
    exec (.illegal w) s = .next (finish .eill s) := by
  simp [exec, execIllegal, h]

/-- Settles O3: a CMD write is decoded by its word, and an illegal word only finishes with EILL. -/
theorem illegalWordOnlyReportsEill : Obligations.IllegalWordOnlyReportsEill := by
  intro w s
  have hdec : decode (.write 0 w) = decodeCommand w := rfl
  rw [hdec, decodeCommand_illegal_iff]
  exact ⟨legalCommand_eq_false_iff w, exec_illegal w s⟩

/-! ## Register writes -/

/-- At every index but CMD's and RXDATA's a register write completes (R152). -/
theorem exec_regwr (a : RegIndex) (wdata : Word) (s : State) (hcmd : a ≠ cmdIndex) (hrxdata : a ≠ rxdataIndex) :
    exec (.regwr a wdata) s = .next (writeReg (regAt a) wdata s) := by
  simp [exec, execRegwr, hcmd, hrxdata]

/-- CTRL keeps the two bits it has (R13). -/
theorem writeReg_ctrl_eq (wdata : Word) (s : State) :
    writeReg (some .ctrl) wdata s = { s with ctrl := BitVec.ofNat 32 (wdata.toNat % 4) } := by
  have hbits : (wdata.extractLsb' 0 2).setWidth 32 = BitVec.ofNat 32 (wdata.toNat % 4) := by
    apply BitVec.eq_of_toNat_eq
    simp [BitVec.extractLsb'_toNat]
  rw [writeReg, hbits]

/-- INLEN stores no more than the 12 bytes there are (R23). -/
theorem writeReg_inlen_eq (wdata : Word) (s : State) :
    writeReg (some .inlen) wdata s = { s with inlen := BitVec.ofNat 32 (min wdata.toNat 12) } := by
  have hclamp : (if wdata.toNat ≤ 12 then wdata else 12) = BitVec.ofNat 32 (min wdata.toNat 12) := by
    split
    · next hle => rw [min_eq_left hle, BitVec.ofNat_toNat, BitVec.setWidth_eq]
    · next hgt =>
      rw [min_eq_right (by omega)]
      rfl
  rw [writeReg, hclamp]

/-- The eight RW registers of R12. -/
def rwRegs : List Reg := [.ctrl, .valLo, .valHi, .in0, .in1, .in2, .inlen, .ptr]

/-- A write anywhere else is ignored (R33, R152). -/
theorem writeReg_of_not_rw (r : Option Reg) (wdata : Word) (s : State) (h : ∀ q ∈ rwRegs, r ≠ some q) :
    writeReg r wdata s = s := by
  rcases r with _ | r
  · rfl
  cases r
  case ctrl | valLo | valHi | in0 | in1 | in2 | inlen | ptr => exact absurd rfl (h _ (by decide))
  all_goals rfl

/-- The RW registers stand at these offsets alone (R12). -/
theorem index_of_rw (a : RegIndex) (q : Reg) (hq : q ∈ rwRegs) (h : regAt a = some q) :
    a ∈ [0x08, 0x0C, 0x10, 0x24, 0x28, 0x2C, 0x30, 0x3C].map wordIndex := by
  revert a q
  decide

/-- Settles O39: the write completes at each offset, and what it stores is the field rule of the register there. -/
theorem registerWritesStoreUnderFieldRules : Obligations.RegisterWritesStoreUnderFieldRules := by
  intro s wdata
  refine ⟨?ctrl, ?_, ?_, ?_, ?_, ?_, ?inlen, ?_, fun a ha => ?ignored⟩
  case ctrl =>
    rw [exec_regwr _ wdata s (by decide) (by decide)]
    exact congrArg _ (writeReg_ctrl_eq wdata s)
  case inlen =>
    rw [exec_regwr _ wdata s (by decide) (by decide)]
    exact congrArg _ (writeReg_inlen_eq wdata s)
  case ignored =>
    rw [List.map_cons, List.map_cons, List.mem_cons, List.mem_cons, not_or, not_or] at ha
    obtain ⟨hcmd, hrxdata, hrw⟩ := ha
    rw [exec_regwr a wdata s hcmd hrxdata,
      writeReg_of_not_rw _ wdata s fun q hq hreg => hrw (index_of_rw a q hq hreg)]
  all_goals exact exec_regwr _ wdata s (by decide) (by decide)

/-! ## Register reads -/

/-- RXLVL is the distance from RD to WR as a word (R30). -/
theorem readReg_rxlvl (cap : Nat) (s : State) : readReg cap (some .rxlvl) s = s.wr - s.rd := by
  rw [readReg, posDist, BitVec.ofNat_toNat, BitVec.setWidth_eq]

/-- From offset 0x5C on there is no register (R12, R33). -/
theorem regAt_reserved (a : RegIndex) (h : 0x5C ≤ 4 * a.toNat) : regAt a = none := by
  revert a
  decide

/-- Settles O40: each offset of the map reads as its register, and the read of RXPEEK is the instruction RXPEEK. -/
theorem registerReadsFollowTheMap : Obligations.RegisterReadsFollowTheMap := by
  intro s
  refine ⟨fun ar har => ?_, fun a ha => ?_, rfl⟩
  · suffices hread : readReg Config.rxcap (regAt ar.1) s = ar.2 by rw [exec_regrd, hread, respond]
    revert ar
    simp only [List.forall_mem_cons]
    refine ⟨rfl, rfl, rfl, rfl, rfl, rfl, rfl, rfl, rfl, rfl, rfl, rfl, rfl, rfl, rfl, rfl, rfl, readReg_rxlvl _ s, rfl,
      rfl, nofun⟩
  · rw [exec_regrd, regAt_reserved a ha]
    rfl

/-! ## SRESET -/

/-- An empty window with nothing unscanned and nothing to report: of STATUS only RXEMPTY is set (R15, R17). -/
theorem statusWord_of_empty (s : State) (hcode : s.code = .ok) (hferr : s.ferr = .ok) (hrd : s.rd = s.wr)
    (hscan : s.scan = s.wr) : statusWord Config.rxcap s = 0x00010000 := by
  have hcap := rxcap_bounds
  have hnotfull : rxfull Config.rxcap s = false := by
    simp only [rxfull, hrd, posDist_self, decide_eq_false_iff_not]
    omega
  have hempty : rxempty s = true := by simp [rxempty, hrd]
  have hnopend : scanpend s = false := by simp [scanpend, hscan]
  apply BitVec.eq_of_toNat_eq
  rw [statusWord_toNat, hnotfull, hempty, hnopend, hcode, hferr]
  rfl

/-- SRESET is the reset state but for CTRL, the storage, and the host's side of the port (R150). -/
theorem softReset_eq (s : State) : softReset s =
    { State.reset with ctrl := s.ctrl, win := s.win, pending := s.pending, resp := s.resp } := rfl

theorem softReset_softReset (s : State) : softReset (softReset s) = softReset s := rfl

/-- Settles O38: what SRESET leaves is an empty window with nothing to report, which a second SRESET leaves too. -/
theorem sresetKeepsOnlyCtrl : Obligations.SresetKeepsOnlyCtrl := by
  intro s
  have hstatus := statusWord_of_empty (softReset s) rfl rfl rfl rfl
  refine ⟨softReset s, exec_sreset s, softReset_eq s, hstatus, ?_⟩
  rw [exec_sreset, softReset_softReset]

end Sys2Proof.Machine

/-! PROOFS. Proofs/Exceptions.lean: that no step stops, that a command which fails leaves only STATUS behind, and who writes
the fatal latch (spec/60_exceptions.md). -/

namespace Sys2Proof.Machine

open Sys2Proof

/-! ## No traps -/

/-- Settles O10: with no event nothing happens, and every event takes effect (R160). -/
theorem soundStatesNeverStop : Obligations.SoundStatesNeverStop := by
  intro s hs
  cases hpending : s.pending with
  | nil => exact ⟨s, step_of_pending_nil s hpending⟩
  | cons e rest =>
    obtain ⟨t, hstep, -⟩ := step_takes_event s e rest hs hpending
    exact ⟨t, hstep⟩

/-! ## All or nothing -/

/-- Nothing differs but STATUS.CODE and STATUS.FERR (R160). -/
def SameButStatus (s t : State) : Prop := t = { s with code := t.code, ferr := t.ferr }

theorem finish_sameButStatus (c : Code) (s : State) : SameButStatus s (finish c s) := rfl

theorem decWriteback_allOrNothing (w : Width) (r : Decoded) (s : State) (hne : (decWriteback w r s).code ≠ .ok) :
    SameButStatus s (decWriteback w r s) := by
  cases r with
  | ok v k => exact absurd rfl hne
  | need | invalid => exact finish_sameButStatus ..

theorem decodeAtPtr_allOrNothing (w : Width) (s : State) (hne : (decodeAtPtr w s).code ≠ .ok) :
    SameButStatus s (decodeAtPtr w s) := by
  obtain ⟨v, k, -, -, hd⟩ | ⟨-, -, hd⟩ | ⟨-, -, hd⟩ | ⟨-, hd⟩ := decodeAtPtr_cases w s <;> rw [hd] at hne ⊢
  · exact absurd rfl hne
  all_goals rfl

/-- FDETECT writes more than STATUS only when it finds a frame (R130). -/
theorem fdetect_allOrNothing (s t : State) (h : exec .fdetect s = .next t) (hne : t.code ≠ .ok) :
    SameButStatus s t := by
  obtain ⟨-, rfl⟩ | ⟨hferr, -, rfl⟩ := fdetect_cases s t h
  · rfl
  obtain ⟨-, hj⟩ | ⟨-, hj⟩ | ⟨-, -, hj⟩ | ⟨-, -, -, -, -, hj⟩ | ⟨-, -, -, -, -, -, hj⟩ | ⟨len, k, -, -, -, -, hj⟩ :=
    judgeFrame_cases Config.rxcap (decodeWin .w32 s.scan s) s hferr <;> rw [hj] at hne ⊢
  case inr.inr.inr.inr.inr => exact absurd rfl hne
  all_goals rfl

theorem fhdr_allOrNothing (s t : State) (h : exec .fhdr s = .next t) (hne : t.code ≠ .ok) : SameButStatus s t := by
  obtain ⟨-, hx⟩ | ⟨-, hx⟩ := fhdr_cases s <;> cases hx.symm.trans h
  · exact finish_sameButStatus ..
  · exact absurd rfl hne

/-- FEOS writes nothing but STATUS, however it ends (R133). -/
theorem feos_sameButStatus (s t : State) (h : exec .feos s = .next t) : SameButStatus s t := by
  obtain ⟨-, hx⟩ | ⟨-, -, hx⟩ | ⟨-, -, hx⟩ := feos_cases s <;> cases hx.symm.trans h <;> rfl

/-- Settles O43: a command always ends in OK, or its ends other than OK write only STATUS. -/
theorem failedCommandsChangeOnlyStatus : Obligations.FailedCommandsChangeOnlyStatus := by
  intro i s t hi h hne
  cases i with
  | enc32 | enc64 | len32 | len64 | frelease | sreset =>
    cases h
    exact absurd rfl hne
  | dec32r | dec64r =>
    cases h
    exact decWriteback_allOrNothing _ _ s hne
  | dec32w | dec64w =>
    cases h
    exact decodeAtPtr_allOrNothing _ s hne
  | fdetect => exact fdetect_allOrNothing s t h hne
  | fhdr => exact fhdr_allOrNothing s t h hne
  | feos => exact feos_sameButStatus s t h
  | illegal w =>
    rw [illegal_next w s t h]
    exact finish_sameButStatus ..
  | rxpush | rxpeek | regwr | regrd => cases hi

/-! ## Who writes the fatal latch -/

@[simp] theorem encodeOut_ferr (w : Width) (v : Nat) (s : State) : (encodeOut w v s).ferr = s.ferr := rfl

@[simp] theorem lengthOut_ferr (w : Width) (v : Nat) (s : State) : (lengthOut w v s).ferr = s.ferr := rfl

@[simp] theorem decWriteback_ferr (w : Width) (r : Decoded) (s : State) : (decWriteback w r s).ferr = s.ferr := by
  cases r <;> rfl

@[simp] theorem decodeAtPtr_ferr (w : Width) (s : State) : (decodeAtPtr w s).ferr = s.ferr := by
  obtain ⟨v, k, -, -, hd⟩ | ⟨-, -, hd⟩ | ⟨-, -, hd⟩ | ⟨-, hd⟩ := decodeAtPtr_cases w s <;> rw [hd]

@[simp] theorem writeReg_ferr (r : Option Reg) (wdata : Word) (s : State) : (writeReg r wdata s).ferr = s.ferr := by
  rw [writeReg_frame]

/-- The instructions that can write FERR: the three that a latching event belongs to (R164), and SRESET (R150). -/
def mayWriteFerr (i : Instr) : Bool :=
  match i with
  | .fdetect | .rxpush _ | .feos | .sreset => true
  | _ => false

/-- Every other instruction leaves FERR as it is, latched or not (R163, R164). -/
theorem exec_keeps_ferr (i : Instr) (s t : State) (hi : mayWriteFerr i = false) (h : exec i s = .next t) :
    t.ferr = s.ferr := by
  cases i with
  | enc32 | enc64 =>
    cases h
    exact encodeOut_ferr ..
  | len32 | len64 =>
    cases h
    exact lengthOut_ferr ..
  | dec32r | dec64r =>
    cases h
    exact decWriteback_ferr ..
  | dec32w | dec64w =>
    cases h
    exact decodeAtPtr_ferr ..
  | frelease =>
    cases h
    rfl
  | fhdr => obtain ⟨-, hx⟩ | ⟨-, hx⟩ := fhdr_cases s <;> cases hx.symm.trans h <;> rfl
  | illegal w => rw [illegal_next w s t h, finish_ferr]
  | rxpeek | regrd =>
    cases h
    exact respond_ferr ..
  | regwr a wdata => rw [regwr_next a wdata s t h, writeReg_ferr]
  | fdetect | feos | sreset | rxpush => cases hi

/-- A push latches EOVF if the window is full and nothing is latched before (R140, R163). -/
theorem pushByte_ferr (cap : Nat) (b : Byte) (s : State) :
    (pushByte cap b s).ferr = if posDist s.rd s.wr = cap ∧ s.ferr = .ok then .eovf else s.ferr := by
  obtain ⟨hfull, hpush⟩ | ⟨hroom, hpush⟩ := pushByte_cases cap b s <;> rw [hpush]
  · simp [hfull]
  · simp [hroom]

/-- On a healthy stream FDETECT ends in one of its three errors and latches it, or it latches nothing (R130, R164). -/
theorem fdetect_ferr_of_healthy (s t : State) (hf : s.ferr = .ok) (h : exec .fdetect s = .next t) :
    ((t.code = .evarint ∨ t.code = .eframe ∨ t.code = .etoobig) ∧ t.ferr = t.code) ∨
      ((t.code = .need ∨ t.code = .ok) ∧ t.ferr = .ok) := by
  obtain ⟨hlatched, -⟩ | ⟨-, -, rfl⟩ := fdetect_cases s t h
  · exact absurd hf hlatched
  obtain ⟨-, hj⟩ | ⟨-, hj⟩ | ⟨-, -, hj⟩ | ⟨-, -, -, -, -, hj⟩ | ⟨-, -, -, -, -, -, hj⟩ | ⟨len, k, -, -, -, -, hj⟩ :=
    judgeFrame_cases Config.rxcap (decodeWin .w32 s.scan s) s hf <;> simp [hj, hf]

/-- On a healthy stream FEOS ends in EEOS and latches it, or it latches nothing (R133, R164). -/
theorem feos_ferr_of_healthy (s t : State) (hf : s.ferr = .ok) (h : exec .feos s = .next t) :
    (t.code = .eeos ∧ t.ferr = .eeos) ∨ (t.code = .ok ∧ t.ferr = .ok) := by
  obtain ⟨hlatched, -⟩ | ⟨-, -, hx⟩ | ⟨-, -, hx⟩ := feos_cases s
  · exact absurd hf hlatched
  · cases hx.symm.trans h
    exact .inl ⟨rfl, rfl⟩
  · cases hx.symm.trans h
    exact .inr ⟨rfl, hf⟩

theorem exec_feos_of_latched (s : State) (hf : s.ferr ≠ .ok) : exec .feos s = .next (finish s.ferr s) :=
  if_pos hf

/-- Settles O45: FDETECT and FEOS report what is latched, a push finds the latch taken, and no other instruction but
SRESET writes it. -/
theorem fatalLatchIsSticky : Obligations.FatalLatchIsSticky := by
  intro s hf
  refine ⟨fun i t h hi => ?_, exec_fdetect_of_latched s hf, exec_feos_of_latched s hf⟩
  cases i with
  | fdetect =>
    cases (exec_fdetect_of_latched s hf).symm.trans h
    rfl
  | feos =>
    cases (exec_feos_of_latched s hf).symm.trans h
    rfl
  | rxpush wdata =>
    cases h
    rw [pushByte_ferr, if_neg fun hlatches => hf hlatches.2]
  | sreset => exact absurd rfl hi
  | _ => exact exec_keeps_ferr _ s t rfl h

/-- Settles O46: what FERR becomes on a healthy stream, for each instruction that can write it; every other instruction
leaves it as it is. -/
theorem exactlyFiveEventsLatch : Obligations.ExactlyFiveEventsLatch := by
  refine ⟨fun i s t hf h => ?_, fun i s t hi h => exec_keeps_ferr i s t ?_ h⟩
  · cases i with
    | fdetect =>
      obtain ⟨hcode | hcode | hcode, hferr⟩ | ⟨hcode | hcode, hferr⟩ := fdetect_ferr_of_healthy s t hf h <;>
        simp [hcode, hferr]
    | feos =>
      obtain ⟨hcode, hferr⟩ | ⟨hcode, hferr⟩ := feos_ferr_of_healthy s t hf h <;> simp [hcode, hferr]
    | rxpush wdata =>
      cases h
      by_cases hfull : posDist s.rd s.wr = Config.rxcap <;> simp [pushByte_ferr, hf, hfull]
    | sreset =>
      cases h
      simp
    | _ =>
      have hferr : t.ferr = .ok := (exec_keeps_ferr _ s t rfl h).trans hf
      simp [hferr]
  · obtain hmem | ⟨w, rfl⟩ := hi
    · fin_cases hmem <;> rfl
    · rfl

end Sys2Proof.Machine

/-! PROOFS. Proofs/Reset.lean: what the reset event leaves, and that a full window can always be drained
(spec/70_reset_and_hazards.md). -/

namespace Sys2Proof.Machine

open Sys2Proof

/-! ## The reset event -/

/-- RXCAP loses nothing when it is read as a register, since it is below 2^32 (R2, R38). -/
theorem readReg_rxcap_toNat (s : State) :
    (readReg Config.rxcap (some .rxcap) s).toNat = Config.rxcap := by
  have hmax := rxcap_bounds.2
  exact Nat.mod_eq_of_lt (by omega)

/-- A window from a position to itself holds nothing (R5, R15). -/
theorem not_inHalfOpen_self (a p : Position) : ¬ InHalfOpen a a p := by
  simp

/-- Settles O5: the step answers `afterReset`, whose registers are those of the reset state; what is computed at a read
follows from RD = SCAN = WR and from no code being set. -/
theorem resetEventSetsEveryRegister : Obligations.ResetEventSetsEveryRegister := by
  intro s rest hpending
  have hstatus := statusWord_of_empty (afterReset rest) rfl rfl rfl rfl
  have hlevel : readReg Config.rxcap (some .rxlvl) (afterReset rest) = 0 :=
    (readReg_rxlvl ..).trans (BitVec.sub_self 0)
  refine ⟨afterReset rest, step_of_pending_reset s rest hpending, ?_⟩
  exact ⟨rfl, rfl, rfl, rfl, rfl, rfl, rfl, rfl, rfl, rfl, rfl, rfl, rfl, rfl, rfl, rfl, rfl, rfl, rfl, rfl,
    hstatus, hlevel, readReg_rxcap_toNat _, not_inHalfOpen_self _⟩

/-! ## Backpressure -/

/-- A decode of the window asks for more only while it has fewer bytes than the longest VarInt (R102, R111). -/
theorem posDist_lt_maxGroups_of_need {w : Width} {p : Position} {s : State} (h : decodeWin w p s = .need) :
    posDist p s.wr < maxGroups w := by
  have hdec : DecodesAs w (minreq s) (hitrunc s) (winSource s p) (posDist p s.wr) .need :=
    (varDecodeAnswersWhatTheBytesSay ..).2 h.symm
  exact hdec.1

/-- The two ends of FDETECT's tests in NEED: the length prefix is not all there, or a body that could fit is not (R130,
R165). -/
theorem judgeFrame_need_cases (cap : Nat) (r : Decoded) (s : State) (hf : s.ferr = .ok)
    (hneed : (judgeFrame cap r s).code = .need) : r = .need ∨ posDist s.scan s.wr < cap := by
  obtain ⟨hdec, -⟩ | ⟨-, hj⟩ | ⟨-, -, hj⟩ | ⟨-, -, -, -, -, hj⟩ | ⟨len, k, -, -, hcap, hsplit, -⟩ |
    ⟨len, k, -, -, -, -, hj⟩ := judgeFrame_cases cap r s hf
  case inl => exact .inl hdec
  case inr.inr.inr.inr.inl => exact .inr (hsplit.trans_le hcap)
  all_goals
    rw [hj] at hneed
    cases hneed

/-- FDETECT answers NEED only while fewer than RXCAP bytes are unscanned: NEED is no code that can be latched, a length
prefix is shorter than RXCAP, and a frame longer than RXCAP is too big (R130, R164, R184). -/
theorem unscanned_lt_rxcap_of_need (s t : State) (hs : Sound s) (h : exec .fdetect s = .next t)
    (hneed : t.code = .need) : posDist s.scan s.wr < Config.rxcap := by
  obtain ⟨-, rfl⟩ | ⟨hf, -, rfl⟩ := fdetect_cases s t h
  · have hferr : s.ferr = .need := hneed
    have hlatch : latchable .need = true := hferr ▸ hs.ferr_latchable
    cases hlatch
  · obtain hdec | hfew := judgeFrame_need_cases _ _ s hf hneed
    · have hshort : posDist s.scan s.wr < 5 := posDist_lt_maxGroups_of_need hdec
      have hmin := rxcap_bounds.1
      omega
    · exact hfew

/-- Settles O35: were RD at SCAN, all RXCAP bytes of the full window would be unscanned. -/
theorem fullWindowNeedMeansReleasable : Obligations.FullWindowNeedMeansReleasable := by
  intro s t hs hfull h hneed hrd
  have hfew := unscanned_lt_rxcap_of_need s t hs h hneed
  rw [← hrd, hfull] at hfew
  exact lt_irrefl _ hfew

end Sys2Proof.Machine
